-- ==== Sys2Proof/Word.lean ====
section
/-! DEFINITION. The word types of the KLD-2408: bytes, host addresses, generator positions, and the
numbers of streams, generators and trigger lines (00_scope.md sections 6.1, 6.2 and 6.4). -/

namespace Sys2Proof

/-- One byte of host memory or of a record (section 6.1). -/
abbrev Byte := BitVec 8

/-- A 64-bit byte address of host memory (section 6.1). -/
abbrev Addr := BitVec 64

/-- A generator position: a 64-bit count of ticks (section 6.2, R80). -/
abbrev Position := BitVec 64

/-- A stream, its ring and its sample port share one number, 0 to 7 (section 6.4). -/
abbrev StreamNo := Fin 8

/-- Rate generators RG0 to RG3 (section 6.4). -/
abbrev GenNo := Fin 4

/-- Trigger lines TRG0 to TRG3 (section 6.4). -/
abbrev LineNo := Fin 4

/-- A stream set: one byte in which bit `n` stands for stream `n` (chapter 10, opening). -/
abbrev StreamSet := BitVec 8

/-- A Schedule Table entry id, 0 to 255 (R95). -/
abbrev EntryId := BitVec 8

/-- The id of an entry of the Outstanding Transfer Table, 0 to 7 (R172). -/
abbrev TransferId := Fin 8

end Sys2Proof
end

