-- ==== Sys2Proof/Machine/Bytes.lean ====
section
/-! DEFINITION. Little-endian byte order (section 6.1), and the samples of a frame on the serial lane
(R23, R50). -/

namespace Sys2Proof.Machine

/-- The `n` low bytes of `x`, least significant first (section 6.1). -/
def leBytes : Nat → Nat → List Byte
  | 0, _ => []
  | n + 1, x => BitVec.ofNat 8 x :: leBytes n (x / 256)

/-- The number whose little-endian bytes are given (section 6.1). -/
def ofLeBytes : List Byte → Nat
  | [] => 0
  | b :: bs => b.toNat + 256 * ofLeBytes bs

/-- The `n` bytes of a record that start at `offset`, as a number; a byte past the end reads 0. -/
def field (bytes : List Byte) (offset n : Nat) : Nat :=
  ofLeBytes ((bytes.drop offset).take n)

/-- The first `n` bytes, filled up with 0 (R199). -/
def padTo (n : Nat) (bytes : List Byte) : List Byte :=
  (bytes ++ List.replicate n 0).take n

/-- The number whose bits are given, most significant first. -/
def msbNat : List Bool → Nat :=
  List.foldl (fun acc b => 2 * acc + b.toNat) 0

/-- The `n` low bits of `x`, most significant first. -/
def msbBits : Nat → Nat → List Bool
  | 0, _ => []
  | n + 1, x => (x / 2 ^ n % 2 == 1) :: msbBits n x

/-- The frame that `slots` samples of `width` bits shifted in on the lane make: slots in order, each most
significant bit first, stored little-endian (R23, R50). A bit that was not sampled counts as 0. -/
def frameOfBits (width : Nat) : Nat → List Bool → List Byte
  | 0, _ => []
  | slots + 1, bits =>
    let sample := bits.take width ++ List.replicate (width - bits.length) false
    leBytes (width / 8) (msbNat sample) ++ frameOfBits width slots (bits.drop width)

/-- The bits that carry a frame of `slots` samples of `width` bits on the lane, first bit first (R23, R50). -/
def bitsOfFrame (width : Nat) : Nat → List Byte → List Bool
  | 0, _ => []
  | slots + 1, frame =>
    msbBits width (ofLeBytes (padTo (width / 8) frame)) ++ bitsOfFrame width slots (frame.drop (width / 8))

end Sys2Proof.Machine
end

