-- ==== Sys2Proof/Config.lean ====
section
/-! DEFINITION. What the part fixes as numbers, and the one family of values the manual leaves open. -/

namespace Sys2Proof

/-- The eight streams in rising order (R1). -/
def Config.streams : List StreamNo := [0, 1, 2, 3, 4, 5, 6, 7]

/-- The four generators in rising order. -/
def Config.generators : List GenNo := [0, 1, 2, 3]

/-- Places of a frame FIFO (R49). -/
def Config.fifoPlaces : Nat := 32

/-- Records of a staging list (R34). -/
def Config.stagingPlaces : Nat := 16

/-- Events of the Event Holding List (R148). -/
def Config.holdingPlaces : Nat := 8

/-- Entries of the Schedule Table (R93). -/
def Config.schedulePlaces : Nat := 8

/-- The most bytes of one transfer (R172, R173). -/
def Config.transferBytes : Nat := 256

/-- No transfer crosses a multiple of this address (R173). -/
def Config.addressBlock : Nat := 4096

/-- OSC_A in hertz (R74). -/
def Config.oscA : Nat := 24576000

/-- OSC_B in hertz (R74). -/
def Config.oscB : Nat := 22579200

/-- The highest bit-clock rate on a lane, in hertz (R23). -/
def Config.bitClockLimit : Nat := 50000000

/-- The value at which a missed count stays (R6, R91). -/
def Config.missedTop : Nat := 65535

/-- The 64-bit counters of the part whose value past 2^64 - 1 the manual does not state (R4, R80). -/
inductive Counter64 where
  | position
  | dataFrames
  | gapFrames
  | starvedFrames
  | starveRun
deriving DecidableEq, Repr

/-- DESIGN CHOICE (log 5), a FREE VALUE: what a 64-bit counter that stands at its top becomes when it is
raised once more. R80 says only that the count does not wrap in service, so nothing constrains it. -/
opaque Config.pastTop : Counter64 → BitVec 64

end Sys2Proof
end

