-- ==== Sys2Proof/Syntax.lean ====
section
/-! DEFINITION. The commands of the block: one constructor of `Instr` per row of spec/opcode_table.json,
and the records the host writes, field by field as chapter 10 lays them out. -/

namespace Sys2Proof

/-- A stream record as its ring slot holds it (R26, section 10.4); the bytes not examined are not kept. -/
structure StreamRecord where
  /-- byte 0: 1 is DATA, 2 is GAP, any other code is invalid -/
  kind : BitVec 8
  /-- byte 1: bit 0 END, bit 1 MARK, bit 2 QUIET, bits 3 to 7 reserved -/
  flags : BitVec 8
  frameCount : BitVec 16
  repeatCount : BitVec 8
  tag : BitVec 32
  address : Addr
deriving DecidableEq, Repr

/-- The 64 bytes of the Root Block (R187, section 10.2). -/
structure RootBlock where
  controlBase : Addr
  eventBase : Addr
  controlSize : BitVec 16
  eventSize : BitVec 16
  threshold : BitVec 8
  /-- the reserved byte at offset 21 -/
  reserved21 : BitVec 8
  holdoff : BitVec 16
  /-- the reserved bytes at offsets 24 to 63 -/
  reserved24 : BitVec 320
deriving DecidableEq, Repr

/-- The parameters of OPEN_STREAM as its record holds them (R128, section 10.3). -/
structure OpenParams where
  stream : BitVec 8
  direction : BitVec 8
  generator : BitVec 8
  slots : BitVec 8
  width : BitVec 8
  idleLevel : BitVec 8
  changeEdge : BitVec 8
  syncForm : BitVec 8
  policy : BitVec 8
  base : Addr
  size : BitVec 16
  start : BitVec 16
deriving DecidableEq, Repr

/-- The parameters of START and STOP as their records hold them (R130, R132, section 10.3). -/
structure ScheduleParams where
  streams : StreamSet
  condition : BitVec 8
  line : BitVec 8
  target : Position
deriving DecidableEq, Repr

/-- The parameters of SET_GENERATOR as its record holds them (R125, section 10.3). -/
structure GeneratorParams where
  generator : BitVec 8
  source : BitVec 8
  divider : BitVec 16
  frequency : BitVec 32
  lossWindow : BitVec 8
deriving DecidableEq, Repr

/-- A transition of a trigger input (R90). -/
inductive Edge where
  | rising
  | falling
deriving DecidableEq, Repr

/-- The steps of the part that the outside world brings about, one constructor per row of the table.

A command of the Control Ring is the OK completion of its record read (R118): `entry` is the transfer the
completion names (R178) and `seq` the record's sequence number. A register write carries the 32-bit word
written. A completion carries the transfer it names and the data a read returns. -/
inductive Instr where
  | nop (entry : TransferId) (seq : BitVec 16)
  | setGenerator (entry : TransferId) (seq : BitVec 16) (params : GeneratorParams)
  | enableGenerator (entry : TransferId) (seq : BitVec 16) (generator : BitVec 8)
  | disableGenerator (entry : TransferId) (seq : BitVec 16) (generator : BitVec 8)
  | openStream (entry : TransferId) (seq : BitVec 16) (params : OpenParams)
  | closeStream (entry : TransferId) (seq : BitVec 16) (stream : BitVec 8)
  | startNext (entry : TransferId) (seq : BitVec 16) (params : ScheduleParams)
  | startAt (entry : TransferId) (seq : BitVec 16) (params : ScheduleParams)
  | startTrigger (entry : TransferId) (seq : BitVec 16) (params : ScheduleParams)
  | stopNow (entry : TransferId) (seq : BitVec 16) (params : ScheduleParams)
  | stopAt (entry : TransferId) (seq : BitVec 16) (params : ScheduleParams)
  | stopTrigger (entry : TransferId) (seq : BitVec 16) (params : ScheduleParams)
  | stopDrain (entry : TransferId) (seq : BitVec 16) (params : ScheduleParams)
  | cancel (entry : TransferId) (seq : BitVec 16) (target : EntryId)
  | setTrigger (entry : TransferId) (seq : BitVec 16) (line selection report : BitVec 8)
  | query (entry : TransferId) (seq : BitVec 16) (targetKind target page : BitVec 8)
  | unknownCommandKind (entry : TransferId) (seq : BitVec 16) (kind : BitVec 8)
  | controlRingAccess (entry : TransferId)
  /-- the word written to Ring Notify, its ring id 0 -/
  | controlRingNotify (word : BitVec 32)
  /-- the word written to Ring Notify, its ring id neither 0 nor 9 -/
  | streamRingNotify (word : BitVec 32)
  /-- the word written to Ring Notify, its ring id 9 -/
  | eventRingRelease (word : BitVec 32)
  /-- the word written to Device Control, ENABLE 1 and RESET 0 -/
  | enable (word : BitVec 32)
  /-- the word written to Device Control, ENABLE 0 and RESET 0 -/
  | engineDisable (word : BitVec 32)
  /-- the word written to Device Control, RESET 1 -/
  | reset (word : BitVec 32)
  | resetPin
  /-- the word written to Device Control, RESET 0, written for its INTERRUPT_ENABLE -/
  | interruptEnable (word : BitVec 32)
  /-- the word written to Device Status, bit 8 set -/
  | notifyErrorClear (word : BitVec 32)
  /-- the word written to the low (`false`) or the high (`true`) word of Root Pointer -/
  | rootPointerWrite (high : Bool) (word : BitVec 32)
  /-- a write of `width` bytes at `offset` of the window that reaches no writable register -/
  | registerWriteDiscarded (offset width : Nat) (value : BitVec 64)
  | rootBlockLoad (entry : TransferId) (block : RootBlock)
  | rootAccess (entry : TransferId)
  | dataReadComplete (entry : TransferId) (data : List Byte)
  | dataReadError (entry : TransferId)
  | dataWriteComplete (entry : TransferId)
  | dataWriteError (entry : TransferId)
  | recordReadComplete (entry : TransferId) (record : StreamRecord)
  | recordReadError (entry : TransferId)
  | eventWriteComplete (entry : TransferId)
  | eventRingAccess (entry : TransferId)
  /-- `lanes`: for each sample port, the bits sampled in the frame period this tick closes, first bit first -/
  | tick (generator : GenNo) (lanes : List (List Bool))
  | referenceMonitorExpiry (generator : GenNo)
  | streamReferenceLoss (generator : GenNo)
  | scheduleReferenceLoss (generator : GenNo)
  | removalClaim (stream : StreamNo)
  | triggerEdge (line : LineNo) (edge : Edge)
  | holdoffTimerExpiry
  | referenceEdge (generator : GenNo)
  | resetPinRelease
deriving DecidableEq, Repr

end Sys2Proof
end

