-- ==== Sys2Proof/Machine/Types.lean ====
section
/-! DEFINITION. The kinds of value each block keeps, and the records of its state, as plain data. -/

namespace Sys2Proof.Machine

/-! ### Streams (chapters 1 to 3) -/

/-- The eight stream states (section 1.1). -/
inductive StreamState where
  | closed
  | idle
  | armed
  | running
  | starved
  | draining
  | stopping
  | faulted
deriving DecidableEq, Repr

inductive Direction where
  | output
  | capture
deriving DecidableEq, Repr

/-- A level of a lane signal. -/
inductive Level where
  | low
  | high
deriving DecidableEq, Repr

/-- Frame-sync form (R23). -/
inductive SyncForm where
  | pulse
  | level
deriving DecidableEq, Repr

/-- Starve policy SILENCE, REPEAT, HALT (R22). -/
inductive StarvePolicy where
  | silence
  | repeatFrame
  | halt
deriving DecidableEq, Repr

/-- STOPPING destination (R5). -/
inductive Destination where
  | idle
  | closed
deriving DecidableEq, Repr

/-- Stop origin (R5, R16). -/
inductive StopOrigin where
  | command
  | entry
deriving DecidableEq, Repr

/-- Fault cause (R19). -/
inductive FaultCause where
  | underrun
  | dataAccess
  | ringAccess
  | referenceLost
deriving DecidableEq, Repr

/-- Why a record is invalid (R28). -/
inductive RejectReason where
  | unknownKind
  | reservedFlags
  | zeroLength
  | repeatOnCapture
  | alignment
  | addressWrap
deriving DecidableEq, Repr

/-- Retired status (R35, R43). -/
inductive RetiredStatus where
  | done
  | flushed
  | aborted
  | rejected
deriving DecidableEq, Repr

/-- Stop reason of a STOP_DONE (R146). -/
inductive StopReason where
  | command
  | drain
  | endRecord
  | atPosition
  | trigger
deriving DecidableEq, Repr

/-- A staged record: the fields read from the ring and the state of R35. -/
structure StagedRecord where
  /-- the copy read at take (R25) -/
  record : StreamRecord
  ringIndex : Nat
  invalid : Option RejectReason
  pass : Nat
  /-- frames fetched (OUTPUT) or frames assigned (CAPTURE) -/
  progress : Nat
  moved : Nat
  firstPosition : Option Position
  outstanding : Nat
  failed : Bool
  finished : Bool
  retired : Option RetiredStatus
deriving DecidableEq, Repr

/-- One occupied place of a frame FIFO (R49): the record, pass and frame index of its frame, and its bytes.

OUTPUT: a byte that has not arrived is `none`; a place is ready when its bytes and those of every place
ahead have arrived. CAPTURE: `issued` and `written` are how many of its bytes issued writes carry and
writes completed OK have written, `writes` how many writes that carry its bytes are outstanding, and
`givenUp` marks a frame that R62 or R66 gives up. A place is Assigned while `issued` is 0. -/
structure Place where
  ring : Nat
  pass : Nat
  frame : Nat
  gap : Bool
  bytes : List (Option Byte)
  issued : Nat
  written : Nat
  writes : Nat
  givenUp : Bool
deriving DecidableEq, Repr

/-! ### Events (chapter 7) -/

/-- Command status (R121). -/
inductive Status where
  | ok
  | pending
  | busy
  | badState
  | badParam
  | noEntry
  | genOff
  | unknown
deriving DecidableEq, Repr

inductive EntryKind where
  | start
  | stop
deriving DecidableEq, Repr

/-- Reason of an ENTRY_CLEARED (R146). -/
inductive ClearReason where
  | cancelled
  | streamsLeft
  | referenceLost
deriving DecidableEq, Repr

/-- Generator state, and the mark of a TRIGGER notice (R76, R91). -/
inductive GeneratorState where
  | off
  | running
  | lost
deriving DecidableEq, Repr

/-- The events and their content (R146, R147). -/
inductive Event where
  | cmdDone (seq : BitVec 16) (index : Nat) (status : Status) (result : List Byte)
  | bufferDone (stream : StreamNo) (tag : BitVec 32) (ringIndex : Nat) (status : RetiredStatus)
      (reject : Option RejectReason) (moved : Nat) (first : Option Position) (quiet : Bool)
  | startDone (entry : EntryId) (generator : GenNo) (streams : StreamSet) (position : Position) (late : Bool)
  | entryStopDone (entry : EntryId) (generator : GenNo) (streams : StreamSet) (reason : StopReason)
      (position : Position) (late : Bool)
  | streamStopDone (stream : StreamNo) (generator : GenNo) (reason : StopReason) (position : Position)
  | entryCleared (entry : EntryId) (kind : EntryKind) (reason : ClearReason)
  | streamFault (stream : StreamNo) (cause : FaultCause) (position : Position)
  | referenceLost (generator : GenNo) (position : Position)
  | starveBegin (stream : StreamNo) (position : Position) (missed : Nat)
  | starveEnd (stream : StreamNo) (position : Position) (length : BitVec 64) (missed : Nat)
  | mark (stream : StreamNo) (tag : BitVec 32) (position : Position) (missed : Nat)
  | trigger (line : LineNo) (edge : Edge) (missed : Nat) (marks : List (GeneratorState × Position))
deriving DecidableEq, Repr

/-- A stream's pending report (R6). `drainRun` marks the STOP_DONE that ends a run begun as a drain, which
R137 gates. -/
structure PendingReport where
  event : Event
  drainRun : Bool
deriving DecidableEq, Repr

/-- A STOP_DONE that an END retirement or a completed drain owes and that is not yet produced (R46). -/
structure OwedStop where
  reason : StopReason
  drainRun : Bool
deriving DecidableEq, Repr

/-- A stream context (section 1.1), with its staging list, its FIFO and its fetch state. The last group
holds what the rules need and the context table of section 1.1 does not list (log 6). -/
structure Stream where
  state : StreamState
  direction : Direction
  generator : GenNo
  slots : Nat
  width : Nat
  idleLevel : Level
  changeEdge : Edge
  syncForm : SyncForm
  policy : StarvePolicy
  ringBase : Addr
  ringSize : Nat
  producer : Nat
  consumer : Nat
  startPosition : Option Position
  dataFrames : BitVec 64
  gapFrames : BitVec 64
  starvedFrames : BitVec 64
  starveRun : BitVec 64
  drainLimit : Option Nat
  scheduleEntry : Option EntryId
  destination : Option Destination
  stopOrigin : Option StopOrigin
  faultCause : Option FaultCause
  faultInRun : Bool
  drainAnswered : Bool
  pendingReport : Option PendingReport
  markMissed : Nat
  beginMissed : Nat
  endMissed : Nat
  lastFrame : List Byte
  staging : List StagedRecord
  fifo : List Place
  /-- the bytes of a frame split at a 4 KiB boundary that the fetch point has passed (R51), else 0 -/
  fetchSplit : Nat
  /-- a record read is presented and not yet granted (R30) -/
  readPresented : Bool
  /-- a STREAM_FAULT that is owed, with its cause and position (R46) -/
  faultOwed : Option (FaultCause × Position)
  /-- a STOP_DONE of an ended run that is owed (R46) -/
  stopOwed : Option OwedStop
  /-- STOPPING was entered in the tail of an ended run (R64): it ends without a second STOP_DONE -/
  stopReported : Bool
  /-- STOPPING was entered from FAULTED (R18, R203) -/
  stoppedFromFault : Bool
  /-- the STOP entry that this stream answers at the end of STOPPING (R101) -/
  answerTo : Option EntryId
deriving DecidableEq, Repr

/-- A sample port: whether its lane is active (R72), and the frame being shifted in the frame period (R70). -/
structure Port where
  active : Bool
  frame : List Byte
deriving DecidableEq, Repr

/-! ### The Schedule Unit (chapter 5) -/

/-- The condition of an entry, with its trigger line (R93). -/
inductive Condition where
  | next
  | atPosition
  | trigger (line : LineNo)
deriving DecidableEq, Repr

/-- The four entry states (R94). -/
inductive EntryState where
  | waiting
  | firing
  | firedUnreported
  | clearedUnreported
deriving DecidableEq, Repr

/-- A Schedule Table entry (R93). -/
structure ScheduleEntry where
  id : EntryId
  kind : EntryKind
  generator : GenNo
  condition : Condition
  firePosition : Option Position
  late : Bool
  streams : StreamSet
  answered : StreamSet
  lastRemoval : Option ClearReason
  state : EntryState
  creationAnswered : Bool
  closing : Option Event
  /-- the older entries that entered FIRING at the same tick and are still undecided (R108) -/
  behind : List EntryId
deriving DecidableEq, Repr

/-- A removal claim handed to the Schedule Unit and not yet taken (R104). -/
structure RemovalClaim where
  entry : EntryId
  stream : StreamNo
  reason : ClearReason
deriving DecidableEq, Repr

/-- A reference-loss claim handed to a block and not yet taken (R83). -/
structure LossClaim where
  generator : GenNo
  position : Position
deriving DecidableEq, Repr

/-- The Schedule Unit: its table, its id counter, its offering order (R108) and the claims on it. -/
structure ScheduleUnit where
  entries : List ScheduleEntry
  idCounter : EntryId
  offering : List EntryId
  removals : List RemovalClaim
  losses : List LossClaim
deriving DecidableEq, Repr

/-! ### The Timebase Unit (chapter 4) -/

/-- Reference source (R74). -/
inductive RefSource where
  | oscA
  | oscB
  | ref0
  | ref1
deriving DecidableEq, Repr

/-- Edge selection NONE, RISING, FALLING, BOTH (R89). -/
inductive EdgeSelection where
  | noEdge
  | rising
  | falling
  | both
deriving DecidableEq, Repr

/-- A rate generator (R74, R76). `edges` counts reference edges since the last tick, and `monitor` is the
window of the running loss-window timer in milliseconds, `none` when the monitor is disarmed (R82). -/
structure Generator where
  state : GeneratorState
  source : RefSource
  frequency : Nat
  divider : Nat
  lossWindow : Nat
  position : Position
  edges : Nat
  monitor : Option Nat
deriving DecidableEq, Repr

/-- A trigger line (R89). -/
structure TriggerLine where
  selection : EdgeSelection
  report : Bool
  missed : Nat
deriving DecidableEq, Repr

/-- The Timebase Unit. `lostReports` holds the generators' pending slots in the order of their losses (R86). -/
structure Timebase where
  generators : Vector Generator 4
  lines : Vector TriggerLine 4
  lostReports : List LossClaim
deriving DecidableEq, Repr

/-! ### The Event Unit (chapter 7) -/

/-- An event of the Event Holding List, and whether the write outstanding carries it (R155). -/
structure HeldEvent where
  event : Event
  inWrite : Bool
deriving DecidableEq, Repr

/-- The eleven producers of mandatory events in the circular order of R150: 0 the Command Unit, 1 the
Schedule Unit, 2 the Timebase Unit, 3 to 10 streams 0 to 7. -/
abbrev Producer := Fin 11

/-- The Event Unit (R153, R161 to R164). -/
structure EventUnit where
  base : Addr
  size : Nat
  writeIndex : Nat
  releaseIndex : Nat
  cycle : Bool
  posted : Nat
  inFlight : Nat
  holding : List HeldEvent
  lastServed : Producer
  threshold : Nat
  holdoff : Nat
  count : Nat
  timerRunning : Bool
  pending : Bool
deriving DecidableEq, Repr

/-! ### The Command Unit (chapter 6) -/

/-- The four phases (R116). -/
inductive Phase where
  | ready
  | fetching
  | completing
  | reporting
deriving DecidableEq, Repr

/-- Whom the Command Unit tells when the CMD_DONE is placed (R123). -/
inductive Tell where
  | nobody
  | entry (id : EntryId)
  | drain (stream : StreamNo)
deriving DecidableEq, Repr

/-- The command in progress: its copy, the ring index it was taken from, and the answer it will get. -/
structure CommandInProgress where
  record : Instr
  index : Nat
  seq : BitVec 16
  result : List Byte
  tell : Tell
deriving DecidableEq, Repr

/-- The Command Unit (chapter 6, opening). -/
structure CommandUnit where
  base : Addr
  size : Nat
  producer : Nat
  consumer : Nat
  phase : Phase
  inProgress : Option CommandInProgress
  streamWait : StreamSet
  entryWait : List EntryId
  slot : Option Event
deriving DecidableEq, Repr

/-! ### The Transfer Unit (chapter 8) -/

/-- The requester of a transfer (R172). -/
inductive Requester where
  | streamData (stream : StreamNo)
  | streamRecord (stream : StreamNo)
  | commandRecord
  | eventWrite
  | rootBlock
deriving DecidableEq, Repr

/-- What a transfer serves (R172): the staged record, the pass and the byte offset of a data transfer; the
ring index of a record or command read; the number of entries of an event write. -/
inductive ServedItem where
  | frames (ring pass offset : Nat)
  | slot (index : Nat)
  | entries (count : Nat)
  | rootBlock
deriving DecidableEq, Repr

/-- An occupied entry of the Outstanding Transfer Table (R172). `data` is what a write carries, as given at
its grant (R173); `discard` marks a data read for discard (R66). -/
structure Transfer where
  requester : Requester
  item : ServedItem
  isWrite : Bool
  address : Addr
  length : Nat
  data : List Byte
  discard : Bool
deriving DecidableEq, Repr

/-- The three modes (R174). -/
inductive TransferMode where
  | parked
  | issue
  | settle
deriving DecidableEq, Repr

/-- The Transfer Unit: its table, mode, arbiter pointers (R177) and Fault Address (R180). `lead` is not 0 while the
claim that the engine is QUIESCING waits for it: how many completions it takes ahead of that claim (R174, R181). -/
structure TransferUnit where
  table : Vector (Option Transfer) 8
  mode : TransferMode
  lead : Nat
  lastUrgent : StreamNo
  lastData : StreamNo
  lastRecord : StreamNo
  faultAddress : Addr
deriving DecidableEq, Repr

/-! ### Engine Control (chapter 9) -/

/-- The five engine states (R184). -/
inductive EngineState where
  | off
  | loading
  | active
  | quiescing
  | halted
deriving DecidableEq, Repr

/-- Halt causes (R189). -/
inductive HaltCause where
  | noCause
  | rootInvalid
  | rootAccess
  | controlRingAccess
  | eventRingAccess
deriving DecidableEq, Repr

/-- Engine Control and the registers it shows (R184, R185, R194, R196). ENABLE is not stored: R184 makes it
1 exactly in LOADING, ACTIVE and HALTED. -/
structure EngineControl where
  state : EngineState
  cause : HaltCause
  root : Option RootBlock
  interruptEnable : Bool
  halt : Bool
  rootPointer : Addr
deriving DecidableEq, Repr

end Sys2Proof.Machine
end

