-- ==== Sys2Proof/Machine/Formats.lean ====
section
/-! DEFINITION. The value codes of section 10.1, the 32-byte event entries of section 10.5 and the pieces
of the 16-byte results of section 10.6. -/

namespace Sys2Proof.Machine

/-! ### Value codes (section 10.1) -/

def statusCode : Status → Nat
  | .ok => 0
  | .pending => 1
  | .busy => 2
  | .badState => 3
  | .badParam => 4
  | .noEntry => 5
  | .genOff => 6
  | .unknown => 7

def streamStateCode : StreamState → Nat
  | .closed => 0
  | .idle => 1
  | .armed => 2
  | .running => 3
  | .starved => 4
  | .draining => 5
  | .stopping => 6
  | .faulted => 7

def generatorStateCode : GeneratorState → Nat
  | .off => 0
  | .running => 1
  | .lost => 2

def engineStateCode : EngineState → Nat
  | .off => 0
  | .loading => 1
  | .active => 2
  | .quiescing => 3
  | .halted => 4

def haltCauseCode : HaltCause → Nat
  | .noCause => 0
  | .rootInvalid => 1
  | .rootAccess => 2
  | .controlRingAccess => 3
  | .eventRingAccess => 4

def refSourceCode : RefSource → Nat
  | .oscA => 0
  | .oscB => 1
  | .ref0 => 2
  | .ref1 => 3

def retiredStatusCode : RetiredStatus → Nat
  | .done => 0
  | .flushed => 1
  | .aborted => 2
  | .rejected => 3

def rejectReasonCode : Option RejectReason → Nat
  | none => 0
  | some .unknownKind => 1
  | some .reservedFlags => 2
  | some .zeroLength => 3
  | some .repeatOnCapture => 4
  | some .alignment => 5
  | some .addressWrap => 6

def stopReasonCode : StopReason → Nat
  | .command => 1
  | .drain => 2
  | .endRecord => 3
  | .atPosition => 4
  | .trigger => 5

def clearReasonCode : ClearReason → Nat
  | .cancelled => 1
  | .streamsLeft => 2
  | .referenceLost => 3

def faultCauseCode : Option FaultCause → Nat
  | none => 0
  | some .underrun => 1
  | some .dataAccess => 2
  | some .ringAccess => 3
  | some .referenceLost => 4

def entryKindCode : EntryKind → Nat
  | .start => 0
  | .stop => 1

def directionCode : Direction → Nat
  | .output => 0
  | .capture => 1

def policyCode : StarvePolicy → Nat
  | .silence => 0
  | .repeatFrame => 1
  | .halt => 2

def edgeCode : Edge → Nat
  | .rising => 0
  | .falling => 1

/-- A position, 0 when absent (chapter 10, opening). -/
def positionCode (p : Option Position) : Nat :=
  (p.getD 0).toNat

/-! ### Event entries (section 10.5) -/

/-- The kind byte of an entry. -/
def eventKindCode : Event → Nat
  | .cmdDone .. => 1
  | .bufferDone .. => 2
  | .startDone .. => 3
  | .entryStopDone .. => 4
  | .streamStopDone .. => 4
  | .entryCleared .. => 5
  | .streamFault .. => 6
  | .referenceLost .. => 7
  | .starveBegin .. => 8
  | .starveEnd .. => 9
  | .mark .. => 10
  | .trigger .. => 11

/-- The bit of a stream in a stream set. -/
def streamBit (n : StreamNo) : StreamSet := BitVec.ofNat 8 (2 ^ n.val)

/-- The marks byte of a TRIGGER entry: bits `2g` and `2g + 1` for generator `g`. -/
def marksCode : List (GeneratorState × Position) → Nat
  | [] => 0
  | m :: ms => generatorStateCode m.1 + 4 * marksCode ms

/-- Bytes 2 onward of an entry, up to its last field; `zeros` stands for bytes that no field holds. -/
def eventContent : Event → List Byte
  | .cmdDone seq index status result =>
    leBytes 1 (statusCode status) ++ leBytes 1 0 ++ leBytes 2 seq.toNat ++ leBytes 2 index ++ padTo 16 result
  | .bufferDone stream tag ring status reject moved first quiet =>
    leBytes 1 stream.val
      ++ leBytes 1 (retiredStatusCode status + 4 * quiet.toNat + 16 * rejectReasonCode reject)
      ++ leBytes 2 ring ++ leBytes 2 0 ++ leBytes 4 tag.toNat ++ leBytes 4 moved ++ leBytes 8 (positionCode first)
  | .startDone entry generator streams position late =>
    leBytes 1 generator.val ++ leBytes 1 late.toNat ++ leBytes 1 entry.toNat ++ leBytes 1 streams.toNat
      ++ leBytes 2 0 ++ leBytes 8 position.toNat
  | .entryStopDone entry generator streams reason position late =>
    leBytes 1 generator.val ++ leBytes 1 (late.toNat + 2 + 16 * stopReasonCode reason) ++ leBytes 1 entry.toNat
      ++ leBytes 1 streams.toNat ++ leBytes 2 0 ++ leBytes 8 position.toNat
  | .streamStopDone stream generator reason position =>
    leBytes 1 generator.val ++ leBytes 1 (16 * stopReasonCode reason) ++ leBytes 1 0
      ++ leBytes 1 (streamBit stream).toNat ++ leBytes 2 0 ++ leBytes 8 position.toNat
  | .entryCleared entry kind reason =>
    leBytes 2 0 ++ leBytes 1 entry.toNat ++ leBytes 1 (entryKindCode kind) ++ leBytes 1 (clearReasonCode reason)
  | .streamFault stream cause position =>
    leBytes 1 stream.val ++ leBytes 1 (faultCauseCode (some cause)) ++ leBytes 4 0 ++ leBytes 8 position.toNat
  | .referenceLost generator position =>
    leBytes 1 generator.val ++ leBytes 5 0 ++ leBytes 8 position.toNat
  | .starveBegin stream position missed =>
    leBytes 1 stream.val ++ leBytes 1 0 ++ leBytes 2 missed ++ leBytes 2 0 ++ leBytes 8 position.toNat
  | .starveEnd stream position length missed =>
    leBytes 1 stream.val ++ leBytes 1 0 ++ leBytes 2 missed ++ leBytes 2 0 ++ leBytes 8 position.toNat
      ++ leBytes 8 length.toNat
  | .mark stream tag position missed =>
    leBytes 1 stream.val ++ leBytes 1 0 ++ leBytes 2 missed ++ leBytes 2 0 ++ leBytes 4 tag.toNat ++ leBytes 4 0
      ++ leBytes 8 position.toNat
  | .trigger line edge missed marks =>
    leBytes 1 line.val ++ leBytes 1 (edgeCode edge) ++ leBytes 2 missed ++ leBytes 1 (marksCode marks)
      ++ leBytes 1 0 ++ marks.flatMap (fun m => leBytes 6 m.2.toNat)

/-- The 32 bytes of an event entry; every byte and bit that no field holds is 0 (R199). -/
def encodeEvent (cycle : Bool) (e : Event) : List Byte :=
  padTo 32 (leBytes 1 (eventKindCode e) ++ leBytes 1 cycle.toNat ++ eventContent e)

/-! ### CMD_DONE results (section 10.6), padded to 16 bytes where the entry is written -/

/-- The result of a START, and of a STOP with AT or TRIGGER. -/
def entryResult (id : EntryId) (late : Bool) (fire : Option Position) : List Byte :=
  leBytes 1 id.toNat ++ leBytes 1 late.toNat ++ leBytes 6 0 ++ leBytes 8 (positionCode fire)

/-- The STATE page of an open stream. -/
def statePage (c : Stream) : List Byte :=
  leBytes 1 (streamStateCode c.state) ++ leBytes 1 (directionCode c.direction) ++ leBytes 1 c.generator.val
    ++ leBytes 1 (policyCode c.policy) ++ leBytes 1 (faultCauseCode c.faultCause) ++ leBytes 1 c.staging.length
    ++ leBytes 1 c.fifo.length
    ++ leBytes 1 (c.scheduleEntry.isSome.toNat + 2 * c.drainLimit.isSome.toNat + 4 * c.pendingReport.isSome.toNat)
    ++ leBytes 1 (c.scheduleEntry.getD 0).toNat ++ leBytes 2 c.producer ++ leBytes 2 c.consumer
    ++ leBytes 2 (c.drainLimit.getD 0)

/-- The POSITIONS page. -/
def positionsPage (c : Stream) (position : Position) : List Byte :=
  leBytes 8 (positionCode c.startPosition) ++ leBytes 8 position.toNat

/-- The FRAMES page. -/
def framesPage (c : Stream) : List Byte :=
  leBytes 8 c.dataFrames.toNat ++ leBytes 8 c.gapFrames.toNat

/-- The STARVE page. -/
def starvePage (c : Stream) : List Byte :=
  leBytes 8 c.starvedFrames.toNat ++ leBytes 8 c.starveRun.toNat

/-- The CONFIG page of a generator. -/
def configPage (g : Generator) (lostWaiting : Bool) (bound : StreamSet) : List Byte :=
  leBytes 1 (generatorStateCode g.state) ++ leBytes 1 (refSourceCode g.source) ++ leBytes 1 g.lossWindow
    ++ leBytes 1 lostWaiting.toNat ++ leBytes 2 g.divider ++ leBytes 1 bound.toNat ++ leBytes 1 0
    ++ leBytes 4 g.frequency

/-- The POSITION page of a generator. -/
def positionPage (g : Generator) : List Byte :=
  leBytes 1 (generatorStateCode g.state) ++ leBytes 7 0 ++ leBytes 8 g.position.toNat

end Sys2Proof.Machine
end

