-- ==== Sys2Proof/Machine/Operands.lean ====
section
/-! DEFINITION. Operand forms: what the bytes of a command record, of a stream record and of a register word
name (section 10.1, R198, R200). A code that names nothing gives `none`. -/

namespace Sys2Proof.Machine

/-! ### Numbers and codes of a command record (R198) -/

/-- A stream number byte names streams 0 to 7. -/
def streamOf (b : BitVec 8) : Option StreamNo :=
  if h : b.toNat < 8 then some ⟨b.toNat, h⟩ else none

/-- A generator number byte names generators 0 to 3. -/
def generatorOf (b : BitVec 8) : Option GenNo :=
  if h : b.toNat < 4 then some ⟨b.toNat, h⟩ else none

/-- A line byte names lines 0 to 3. -/
def lineOf (b : BitVec 8) : Option LineNo :=
  if h : b.toNat < 4 then some ⟨b.toNat, h⟩ else none

def directionOf (b : BitVec 8) : Option Direction :=
  match b.toNat with
  | 0 => some .output
  | 1 => some .capture
  | _ => none

def levelOf (b : BitVec 8) : Option Level :=
  match b.toNat with
  | 0 => some .low
  | 1 => some .high
  | _ => none

def changeEdgeOf (b : BitVec 8) : Option Edge :=
  match b.toNat with
  | 0 => some .rising
  | 1 => some .falling
  | _ => none

def syncFormOf (b : BitVec 8) : Option SyncForm :=
  match b.toNat with
  | 0 => some .pulse
  | 1 => some .level
  | _ => none

def policyOf (b : BitVec 8) : Option StarvePolicy :=
  match b.toNat with
  | 0 => some .silence
  | 1 => some .repeatFrame
  | 2 => some .halt
  | _ => none

def sourceOf (b : BitVec 8) : Option RefSource :=
  match b.toNat with
  | 0 => some .oscA
  | 1 => some .oscB
  | 2 => some .ref0
  | 3 => some .ref1
  | _ => none

def selectionOf (b : BitVec 8) : Option EdgeSelection :=
  match b.toNat with
  | 0 => some .noEdge
  | 1 => some .rising
  | 2 => some .falling
  | 3 => some .both
  | _ => none

def reportOf (b : BitVec 8) : Option Bool :=
  match b.toNat with
  | 0 => some false
  | 1 => some true
  | _ => none

/-- The condition codes NEXT, AT, TRIGGER, NOW and DRAIN (section 10.1). -/
def condNext : BitVec 8 := 0
def condAt : BitVec 8 := 1
def condTrigger : BitVec 8 := 2
def condNow : BitVec 8 := 3
def condDrain : BitVec 8 := 4

/-- A power of two: exactly one bit set (R8, R187). -/
def isPowerOfTwo (n : Nat) : Bool :=
  n != 0 && n &&& (n - 1) == 0

/-- The last byte of a region of `size` bytes at `base` lies within the 64-bit address space. -/
def fitsAddressSpace (base : Addr) (size : Nat) : Bool :=
  base.toNat + size ≤ 2 ^ 64

/-- The streams of a stream set, in rising order. -/
def streamsOf (set : StreamSet) : List StreamNo :=
  Config.streams.filter (fun n => set.getLsbD n.val)

/-- The stream set that holds the given streams. -/
def setOf (streams : List StreamNo) : StreamSet :=
  streams.foldr (fun n acc => streamBit n ||| acc) 0

end Sys2Proof.Machine

namespace Sys2Proof

/-! ### Stream records (section 10.4) -/

def StreamRecord.isData (r : StreamRecord) : Bool := r.kind == 1
def StreamRecord.isGap (r : StreamRecord) : Bool := r.kind == 2
def StreamRecord.endFlag (r : StreamRecord) : Bool := r.flags.getLsbD 0
def StreamRecord.markFlag (r : StreamRecord) : Bool := r.flags.getLsbD 1
def StreamRecord.quietFlag (r : StreamRecord) : Bool := r.flags.getLsbD 2

/-- The passes of a record: a DATA record plays its buffer repeat count + 1 times, a GAP record once (R26, R27). -/
def StreamRecord.passes (r : StreamRecord) : Nat :=
  if r.isData then r.repeatCount.toNat + 1 else 1

/-- The frames a record moves in all (R27). -/
def StreamRecord.totalFrames (r : StreamRecord) : Nat :=
  r.frameCount.toNat * r.passes

end Sys2Proof

namespace Sys2Proof.Machine

/-! ### Register words (section 10.7, R200) -/

/-- Device Control: ENABLE, RESET and INTERRUPT_ENABLE. -/
def wordEnable (w : BitVec 32) : Bool := w.getLsbD 0
def wordReset (w : BitVec 32) : Bool := w.getLsbD 1
def wordInterruptEnable (w : BitVec 32) : Bool := w.getLsbD 2

/-- Device Status: the NOTIFY_ERROR position. -/
def wordNotifyError (w : BitVec 32) : Bool := w.getLsbD 8

/-- Ring Notify: the index and the ring id; bits 24 to 31 are not examined. -/
def notifyIndex (w : BitVec 32) : Nat := w.toNat % 65536
def notifyRing (w : BitVec 32) : Nat := w.toNat / 65536 % 256

end Sys2Proof.Machine
end

