-- ==== Sys2Proof/WellFormed.lean ====
section
/-! DEFINITION. Which terms of `Instr` the part can be given: each row's words and codes are those that make it
that row, so that a record, a register write or a completion is a well-formed term of exactly one row. -/

namespace Sys2Proof

open Machine

/-- The writable registers of the window (section 10.7). -/
def writableOffset (offset : Nat) : Bool :=
  offset == 0x04 || offset == 0x08 || offset == 0x10 || offset == 0x14 || offset == 0x18

/-- The write reaches no writable register: it is not an aligned 32-bit write to one (R168), or it is a Device
Status write that clears nothing (R195). -/
def isDiscardedWrite (offset width : Nat) (value : BitVec 64) : Bool :=
  width != 4 || !writableOffset offset || (offset == 0x08 && !value.getLsbD 8)

/-- The checks of each row. -/
def WellFormed : Instr → Bool
  | .startNext _ _ p => p.condition != condAt && p.condition != condTrigger
  | .startAt _ _ p => p.condition == condAt
  | .startTrigger _ _ p => p.condition == condTrigger
  | .stopNow _ _ p => p.condition != condAt && p.condition != condTrigger && p.condition != condDrain
  | .stopAt _ _ p => p.condition == condAt
  | .stopTrigger _ _ p => p.condition == condTrigger
  | .stopDrain _ _ p => p.condition == condDrain
  | .unknownCommandKind _ _ kind => 10 < kind.toNat
  | .controlRingNotify w => notifyRing w == 0
  | .streamRingNotify w => notifyRing w != 0 && notifyRing w != 9
  | .eventRingRelease w => notifyRing w == 9
  | .enable w => wordEnable w && !wordReset w
  | .engineDisable w => !wordEnable w && !wordReset w
  | .reset w => wordReset w
  | .interruptEnable w => !wordReset w
  | .notifyErrorClear w => wordNotifyError w
  | .registerWriteDiscarded offset width value => isDiscardedWrite offset width value
  | .dataReadComplete _ data => data.length ≤ Config.transferBytes
  | .tick _ lanes => lanes.length == 8 && lanes.all (fun bits => bits.length ≤ 256)
  | .nop .. => true
  | .setGenerator .. => true
  | .enableGenerator .. => true
  | .disableGenerator .. => true
  | .openStream .. => true
  | .closeStream .. => true
  | .cancel .. => true
  | .setTrigger .. => true
  | .query .. => true
  | .controlRingAccess .. => true
  | .resetPin => true
  | .rootPointerWrite .. => true
  | .rootBlockLoad .. => true
  | .rootAccess .. => true
  | .dataReadError .. => true
  | .dataWriteComplete .. => true
  | .dataWriteError .. => true
  | .recordReadComplete .. => true
  | .recordReadError .. => true
  | .eventWriteComplete .. => true
  | .eventRingAccess .. => true
  | .referenceMonitorExpiry .. => true
  | .streamReferenceLoss .. => true
  | .scheduleReferenceLoss .. => true
  | .removalClaim .. => true
  | .triggerEdge .. => true
  | .holdoffTimerExpiry => true
  | .referenceEdge .. => true
  | .resetPinRelease => true

end Sys2Proof
end

