-- ==== Sys2Proof/Decode.lean ====
section
/-! DEFINITION. What the bytes of a command record, a stream record or the Root Block, and the word of a
register write, spell (chapter 10). No row of spec/opcode_table.json gives bits. -/

namespace Sys2Proof

open Machine

/-- The table gives no row any bits, so no table word spells a command. -/
def decodeTableWord (_nbits _w : Nat) : Option Instr := none

/-- The parameters of SET_GENERATOR (section 10.3). -/
def decodeGeneratorParams (b : List Byte) : GeneratorParams where
  generator := BitVec.ofNat 8 (field b 8 1)
  source := BitVec.ofNat 8 (field b 9 1)
  divider := BitVec.ofNat 16 (field b 10 2)
  frequency := BitVec.ofNat 32 (field b 12 4)
  lossWindow := BitVec.ofNat 8 (field b 16 1)

/-- The parameters of OPEN_STREAM (section 10.3). -/
def decodeOpenParams (b : List Byte) : OpenParams where
  stream := BitVec.ofNat 8 (field b 8 1)
  direction := BitVec.ofNat 8 (field b 9 1)
  generator := BitVec.ofNat 8 (field b 10 1)
  slots := BitVec.ofNat 8 (field b 11 1)
  width := BitVec.ofNat 8 (field b 12 1)
  idleLevel := BitVec.ofNat 8 (field b 13 1)
  changeEdge := BitVec.ofNat 8 (field b 14 1)
  syncForm := BitVec.ofNat 8 (field b 15 1)
  policy := BitVec.ofNat 8 (field b 16 1)
  base := BitVec.ofNat 64 (field b 24 8)
  size := BitVec.ofNat 16 (field b 32 2)
  start := BitVec.ofNat 16 (field b 34 2)

/-- The parameters of START and STOP (section 10.3). -/
def decodeScheduleParams (b : List Byte) : ScheduleParams where
  streams := BitVec.ofNat 8 (field b 8 1)
  condition := BitVec.ofNat 8 (field b 9 1)
  line := BitVec.ofNat 8 (field b 10 1)
  target := BitVec.ofNat 64 (field b 16 8)

/-- The command that a 64-byte command record spells, as the completion of transfer `entry` brings it (R115,
R198, section 10.3). -/
def decodeCommandRecord (entry : TransferId) (b : List Byte) : Instr :=
  let kind := BitVec.ofNat 8 (field b 0 1)
  let seq := BitVec.ofNat 16 (field b 2 2)
  let byte (offset : Nat) : BitVec 8 := BitVec.ofNat 8 (field b offset 1)
  let p := decodeScheduleParams b
  match kind.toNat with
  | 0 => .nop entry seq
  | 1 => .setGenerator entry seq (decodeGeneratorParams b)
  | 2 => .enableGenerator entry seq (byte 8)
  | 3 => .disableGenerator entry seq (byte 8)
  | 4 => .openStream entry seq (decodeOpenParams b)
  | 5 => .closeStream entry seq (byte 8)
  | 6 =>
    if p.condition == condAt then .startAt entry seq p
    else if p.condition == condTrigger then .startTrigger entry seq p
    else .startNext entry seq p
  | 7 =>
    if p.condition == condAt then .stopAt entry seq p
    else if p.condition == condTrigger then .stopTrigger entry seq p
    else if p.condition == condDrain then .stopDrain entry seq p
    else .stopNow entry seq p
  | 8 => .cancel entry seq (byte 8)
  | 9 => .setTrigger entry seq (byte 8) (byte 9) (byte 10)
  | 10 => .query entry seq (byte 8) (byte 9) (byte 10)
  | _ => .unknownCommandKind entry seq kind

/-- The stream record that the 32 bytes of a ring slot hold (section 10.4). -/
def decodeStreamRecord (b : List Byte) : StreamRecord where
  kind := BitVec.ofNat 8 (field b 0 1)
  flags := BitVec.ofNat 8 (field b 1 1)
  frameCount := BitVec.ofNat 16 (field b 2 2)
  repeatCount := BitVec.ofNat 8 (field b 4 1)
  tag := BitVec.ofNat 32 (field b 8 4)
  address := BitVec.ofNat 64 (field b 16 8)

/-- The Root Block that 64 bytes hold (section 10.2). -/
def decodeRootBlock (b : List Byte) : RootBlock where
  controlBase := BitVec.ofNat 64 (field b 0 8)
  eventBase := BitVec.ofNat 64 (field b 8 8)
  controlSize := BitVec.ofNat 16 (field b 16 2)
  eventSize := BitVec.ofNat 16 (field b 18 2)
  threshold := BitVec.ofNat 8 (field b 20 1)
  reserved21 := BitVec.ofNat 8 (field b 21 1)
  holdoff := BitVec.ofNat 16 (field b 22 2)
  reserved24 := BitVec.ofNat 320 (field b 24 40)

/-- The row of a host write of `width` bytes at `offset` of the register window (R168, R169, R185, R195, R200). -/
def decodeRegisterWrite (offset width : Nat) (value : BitVec 64) : Instr :=
  let w := value.setWidth 32
  if isDiscardedWrite offset width value then .registerWriteDiscarded offset width value
  else
    match offset with
    | 0x04 => if wordReset w then .reset w else if wordEnable w then .enable w else .engineDisable w
    | 0x08 => .notifyErrorClear w
    | 0x10 => .rootPointerWrite false w
    | 0x14 => .rootPointerWrite true w
    | _ =>
      if notifyRing w == 0 then .controlRingNotify w
      else if notifyRing w == 9 then .eventRingRelease w
      else .streamRingNotify w

/-- The 64 bytes of a command record, its bytes not examined 0; `none` for a row that is no command (section 10.3). -/
def encodeCommandRecord : Instr → Option (List Byte)
  | .nop _ seq => some (commandBytes 0 seq [])
  | .setGenerator _ seq p =>
    some (commandBytes 1 seq (leBytes 1 p.generator.toNat ++ leBytes 1 p.source.toNat ++ leBytes 2 p.divider.toNat
      ++ leBytes 4 p.frequency.toNat ++ leBytes 1 p.lossWindow.toNat))
  | .enableGenerator _ seq g => some (commandBytes 2 seq (leBytes 1 g.toNat))
  | .disableGenerator _ seq g => some (commandBytes 3 seq (leBytes 1 g.toNat))
  | .openStream _ seq p =>
    some (commandBytes 4 seq (leBytes 1 p.stream.toNat ++ leBytes 1 p.direction.toNat ++ leBytes 1 p.generator.toNat
      ++ leBytes 1 p.slots.toNat ++ leBytes 1 p.width.toNat ++ leBytes 1 p.idleLevel.toNat
      ++ leBytes 1 p.changeEdge.toNat ++ leBytes 1 p.syncForm.toNat ++ leBytes 1 p.policy.toNat ++ leBytes 7 0
      ++ leBytes 8 p.base.toNat ++ leBytes 2 p.size.toNat ++ leBytes 2 p.start.toNat))
  | .closeStream _ seq n => some (commandBytes 5 seq (leBytes 1 n.toNat))
  | .startNext _ seq p => some (commandBytes 6 seq (scheduleBytes p))
  | .startAt _ seq p => some (commandBytes 6 seq (scheduleBytes p))
  | .startTrigger _ seq p => some (commandBytes 6 seq (scheduleBytes p))
  | .stopNow _ seq p => some (commandBytes 7 seq (scheduleBytes p))
  | .stopAt _ seq p => some (commandBytes 7 seq (scheduleBytes p))
  | .stopTrigger _ seq p => some (commandBytes 7 seq (scheduleBytes p))
  | .stopDrain _ seq p => some (commandBytes 7 seq (scheduleBytes p))
  | .cancel _ seq id => some (commandBytes 8 seq (leBytes 1 id.toNat))
  | .setTrigger _ seq l e r =>
    some (commandBytes 9 seq (leBytes 1 l.toNat ++ leBytes 1 e.toNat ++ leBytes 1 r.toNat))
  | .query _ seq k n p =>
    some (commandBytes 10 seq (leBytes 1 k.toNat ++ leBytes 1 n.toNat ++ leBytes 1 p.toNat))
  | .unknownCommandKind _ seq kind => some (commandBytes kind.toNat seq [])
  | _ => none
where
  commandBytes (kind : Nat) (seq : BitVec 16) (params : List Byte) : List Byte :=
    padTo 64 (leBytes 2 kind ++ leBytes 2 seq.toNat ++ leBytes 4 0 ++ params)
  scheduleBytes (p : ScheduleParams) : List Byte :=
    leBytes 1 p.streams.toNat ++ leBytes 1 p.condition.toNat ++ leBytes 1 p.line.toNat ++ leBytes 5 0
      ++ leBytes 8 p.target.toNat

end Sys2Proof
end

