-- ==== Sys2Proof/Machine/ResetValues.lean ====
section
/-! DEFINITION. The value of each block's state after a full reset, and of a stream context in CLOSED, as
the reset tables of the chapters give them. -/

namespace Sys2Proof.Machine

/-- A context in CLOSED (R24, R1). -/
def closedStream : Stream where
  state := .closed
  direction := .output
  generator := 0
  slots := 1
  width := 16
  idleLevel := .low
  changeEdge := .falling
  syncForm := .pulse
  policy := .silence
  ringBase := 0
  ringSize := 16
  producer := 0
  consumer := 0
  startPosition := none
  dataFrames := 0
  gapFrames := 0
  starvedFrames := 0
  starveRun := 0
  drainLimit := none
  scheduleEntry := none
  destination := none
  stopOrigin := none
  faultCause := none
  faultInRun := false
  drainAnswered := false
  pendingReport := none
  markMissed := 0
  beginMissed := 0
  endMissed := 0
  lastFrame := [0, 0]
  staging := []
  fifo := []
  fetchSplit := 0
  readPresented := false
  faultOwed := none
  stopOwed := none
  stopReported := false
  stoppedFromFault := false
  answerTo := none

/-- A quiet lane (R73). -/
def quietPort : Port where
  active := false
  frame := []

/-- A generator after a reset (R92). -/
def resetGenerator : Generator where
  state := .off
  source := .oscA
  frequency := Config.oscA
  divider := 512
  lossWindow := 10
  position := 0
  edges := 0
  monitor := none

/-- A trigger line after a reset (R92). -/
def resetLine : TriggerLine where
  selection := .noEdge
  report := false
  missed := 0

/-- The Timebase Unit after a reset (R92). -/
def resetTimebase : Timebase where
  generators := Vector.replicate 4 resetGenerator
  lines := Vector.replicate 4 resetLine
  lostReports := []

/-- The Schedule Unit after a reset (R112). -/
def resetSchedule : ScheduleUnit where
  entries := []
  idCounter := 0
  offering := []
  removals := []
  losses := []

/-- The Command Unit after a reset (R144). -/
def resetCommand : CommandUnit where
  base := 0
  size := 16
  producer := 0
  consumer := 0
  phase := .ready
  inProgress := none
  streamWait := 0
  entryWait := []
  slot := none

/-- The Event Unit after a reset (R167). -/
def resetEvents : EventUnit where
  base := 0
  size := 64
  writeIndex := 0
  releaseIndex := 0
  cycle := true
  posted := 0
  inFlight := 0
  holding := []
  lastServed := 10
  threshold := 1
  holdoff := 0
  count := 0
  timerRunning := false
  pending := false

/-- The Transfer Unit after a full reset (R182). -/
def resetTransfers : TransferUnit where
  table := Vector.replicate 8 none
  mode := .parked
  lead := 0
  lastUrgent := 7
  lastData := 7
  lastRecord := 7
  faultAddress := 0

/-- Engine Control after a full reset (R193). -/
def resetEngine : EngineControl where
  state := .off
  cause := .noCause
  root := none
  interruptEnable := false
  halt := false
  rootPointer := 0

end Sys2Proof.Machine
end

