-- ==== Sys2Proof/Machine/State.lean ====
section
/-! DEFINITION. The state of the block as plain data, the ways a step can stop, and the state after reset. -/

namespace Sys2Proof.Machine

/-- No step of this block faults: the manual gives every command an effect in every state (log 1). A closed
inductive with no constructor, so that no meaning can answer with a fault. -/
inductive Fault where
deriving DecidableEq, Repr

/-- Why a step is refused. -/
inductive Refusal where
  /-- Raised by `exec` alone, for a row that has no meaning yet; no row is left so. Safe. -/
  | notModelled (mnemonic : String)
deriving DecidableEq, Repr

/-- The whole block: the state of each of its nine parts, the model's own fields `orderChoices` and
`claimChoices`, and the queue of the commands that wait. -/
structure State where
  /-- the RESET pin is asserted (R193) -/
  pin : Bool
  engine : EngineControl
  /-- NOTIFY_ERROR, held by the Register Window (R171) -/
  notifyError : Bool
  transfers : TransferUnit
  command : CommandUnit
  streams : Vector Stream 8
  /-- reference-loss claims the Stream Unit has not yet taken, oldest first (R83, R84) -/
  streamLosses : List LossClaim
  ports : Vector Port 8
  schedule : ScheduleUnit
  timebase : Timebase
  events : EventUnit
  /-- THE MODEL'S OWN, a free value (log 2): the orders in which the streams take the claims that reach
  several of them at one event; each such event uses up the first, and rising order serves when none is left -/
  orderChoices : List (List StreamNo)
  /-- THE MODEL'S OWN, a free value (log 32): how many completions the Transfer Unit takes ahead of the claim that the
  engine is QUIESCING; each entry to QUIESCING that finds it in ISSUE uses up the first, and 0 serves when none is left -/
  claimChoices : List Nat
  /-- the commands that wait, first in, first out -/
  pending : List Instr
deriving DecidableEq, Repr

/-- The block right after a full reset (R24, R73, R92, R112, R144, R167, R182, R193), its pin released and
nothing waiting. `orderChoices` and `claimChoices` are empty by DESIGN CHOICE (logs 2 and 32). -/
def State.reset : State where
  pin := false
  engine := resetEngine
  notifyError := false
  transfers := resetTransfers
  command := resetCommand
  streams := Vector.replicate 8 closedStream
  streamLosses := []
  ports := Vector.replicate 8 quietPort
  schedule := resetSchedule
  timebase := resetTimebase
  events := resetEvents
  orderChoices := []
  claimChoices := []
  pending := []

end Sys2Proof.Machine
end

