-- ==== Sys2Proof/Machine/Ops.lean ====
section
/-! DEFINITION. The named operations over the state that every block shares: reading and writing one
stream, port, generator, trigger line or transfer; the Event Unit's acceptance of events (R148 to R151). -/

namespace Sys2Proof.Machine

/-! ### One item of a bank -/

def State.stream (s : State) (n : StreamNo) : Stream := s.streams[n]

def State.putStream (s : State) (n : StreamNo) (c : Stream) : State :=
  { s with streams := s.streams.set n.val c n.isLt }

def State.modifyStream (s : State) (n : StreamNo) (f : Stream → Stream) : State :=
  s.putStream n (f (s.stream n))

def State.port (s : State) (n : StreamNo) : Port := s.ports[n]

def State.putPort (s : State) (n : StreamNo) (p : Port) : State :=
  { s with ports := s.ports.set n.val p n.isLt }

def State.generator (s : State) (g : GenNo) : Generator := s.timebase.generators[g]

def State.putGenerator (s : State) (g : GenNo) (x : Generator) : State :=
  { s with timebase := { s.timebase with generators := s.timebase.generators.set g.val x g.isLt } }

def State.line (s : State) (l : LineNo) : TriggerLine := s.timebase.lines[l]

def State.putLine (s : State) (l : LineNo) (x : TriggerLine) : State :=
  { s with timebase := { s.timebase with lines := s.timebase.lines.set l.val x l.isLt } }

def State.transfer (s : State) (e : TransferId) : Option Transfer := s.transfers.table[e]

def State.putTransfer (s : State) (e : TransferId) (t : Option Transfer) : State :=
  { s with transfers := { s.transfers with table := s.transfers.table.set e.val t e.isLt } }

/-- The engine is ACTIVE and its RESET pin is released. -/
def State.isActive (s : State) : Bool :=
  !s.pin && s.engine.state == .active

/-- The streams bound to a generator (R2), in rising order. -/
def State.boundStreams (s : State) (g : GenNo) : List StreamNo :=
  Config.streams.filter (fun n => (s.stream n).generator == g)

/-- The transfers of the table that a requester holds. -/
def State.outstanding (s : State) (r : Requester) : Nat :=
  s.transfers.table.toList.countP (fun t => t.any (fun t => t.requester == r))

/-- No transfer of the stream remains in the Outstanding Transfer Table (R18). -/
def State.noTransfers (s : State) (n : StreamNo) : Bool :=
  s.outstanding (.streamData n) == 0 && s.outstanding (.streamRecord n) == 0

/-- The order in which the streams take a claim that reaches several of them at one event: the first of
`orderChoices`, each stream once, those it does not name following in rising order (log 2). -/
def State.takeOrder (s : State) : List StreamNo × State :=
  match s.orderChoices with
  | [] => (Config.streams, s)
  | o :: rest =>
    let named := o.foldl (fun acc n => if acc.contains n then acc else acc ++ [n]) []
    (named ++ Config.streams.filter (fun n => !named.contains n), { s with orderChoices := rest })

/-- A 64-bit counter raised by one; past its top the value is free (log 5). -/
def raise (k : Counter64) (x : BitVec 64) : BitVec 64 :=
  if x = BitVec.allOnes 64 then Config.pastTop k else x + 1

/-- The next position of a generator (R80). -/
def nextPosition (p : Position) : Position := raise .position p

/-! ### States of a stream -/

/-- The states in which a stream takes records (R7). -/
def Stream.isTaking (c : Stream) : Bool :=
  c.state == .idle || c.state == .armed || c.state == .running || c.state == .starved || c.state == .draining

/-- The running states RUNNING, STARVED and DRAINING. -/
def Stream.isRunning (c : Stream) : Bool :=
  c.state == .running || c.state == .starved || c.state == .draining

/-- STOPPING or FAULTED, in which records retire after the stream's transfers have ended (R47). -/
def Stream.isHalting (c : Stream) : Bool :=
  c.state == .stopping || c.state == .faulted

def Event.isStopDone : Event → Bool
  | .streamStopDone .. => true
  | _ => false

/-- The run has ended by END or drain and its STOP_DONE is owed or waits in the pending report (R64, R132; log 7). -/
def Stream.inTail (c : Stream) : Bool :=
  c.stopOwed.isSome || c.pendingReport.any (fun r => r.event.isStopDone)

/-- *Ended* in the sense of R132. -/
def Stream.isEnded (c : Stream) : Bool := c.isRunning && c.inTail

/-- Frame size in bytes, derived from slots and sample width (R2). -/
def Stream.frameSize (c : Stream) : Nat := c.slots * c.width / 8

/-- The zero frame (R50). -/
def Stream.zeroFrame (c : Stream) : List Byte := List.replicate c.frameSize 0

/-- The last used position of the run (R4); 0 while there has been no run. -/
def Stream.finalPosition (c : Stream) : Position :=
  match c.startPosition with
  | none => 0
  | some p => p + c.dataFrames + c.gapFrames + c.starvedFrames - 1

/-! ### The Event Holding List (section 7.2) -/

def commandProducer : Producer := 0
def scheduleProducer : Producer := 1
def timebaseProducer : Producer := 2

/-- The producer number of a stream. -/
def streamProducer (n : StreamNo) : Producer := ⟨n.val + 3, by omega⟩

/-- The eleven producers in the circular order of R150. -/
def producers : List Producer := [0, 1, 2, 3, 4, 5, 6, 7, 8, 9, 10]

/-- The report of a stream is held under the gate of R137, and so is not waiting (R149). -/
def Stream.reportGated (c : Stream) : Bool :=
  c.pendingReport.any (fun r => r.drainRun) && !c.drainAnswered

/-- The stream's pending report waits for room. -/
def Stream.reportWaits (c : Stream) : Bool :=
  c.pendingReport.isSome && !c.reportGated

def State.entry? (s : State) (id : EntryId) : Option ScheduleEntry :=
  s.schedule.entries.find? (fun e => e.id == id)

/-- The closing event that the Schedule Unit may offer: that of the first entry of the offering order, once
the CMD_DONE of the creating command has been placed (R108). -/
def State.offerableClosing (s : State) : Option (ScheduleEntry × Event) :=
  match s.schedule.offering with
  | [] => none
  | id :: _ =>
    match s.entry? id with
    | none => none
    | some e => if e.creationAnswered then e.closing.map (fun ev => (e, ev)) else none

/-- The producer waits for a place in the Event Holding List (R149). -/
def State.waits (s : State) (p : Producer) : Bool :=
  match p.val with
  | 0 => s.command.slot.isSome
  | 1 => s.offerableClosing.isSome
  | 2 => !s.timebase.lostReports.isEmpty
  | k + 3 => (s.stream (Fin.ofNat 8 k)).reportWaits

/-- A place of the Event Holding List is free (R148). -/
def State.placeFree (s : State) : Bool :=
  s.events.holding.length < Config.holdingPlaces

/-- A mandatory event of producer `p` is accepted at once: a place is free and no other producer waits (R150). R150
says so of what the producer just served goes on to produce; that it holds in the same way of an event which a grant lets
ANOTHER producer offer is the model's (DESIGN CHOICE, log 34). -/
def State.roomFor (s : State) (p : Producer) : Bool :=
  s.placeFree && producers.all (fun q => q == p || !s.waits q)

/-- An event joins the tail of the Event Holding List (R148). -/
def State.accept (s : State) (e : Event) : State :=
  { s with events := { s.events with holding := s.events.holding ++ [⟨e, false⟩] } }

/-- A missed count after one more drop (R6, R151). -/
def missedAfterDrop (n : Nat) : Nat := min Config.missedTop (n + 1)

/-- A STARVE_BEGIN notice is offered (R63, R151). -/
def State.offerStarveBegin (s : State) (n : StreamNo) (position : Position) : State :=
  let c := s.stream n
  if s.placeFree then
    (s.accept (.starveBegin n position c.beginMissed)).putStream n { c with beginMissed := 0 }
  else s.putStream n { c with beginMissed := missedAfterDrop c.beginMissed }

/-- A STARVE_END notice is offered (R63, R151). -/
def State.offerStarveEnd (s : State) (n : StreamNo) (position : Position) (length : BitVec 64) : State :=
  let c := s.stream n
  if s.placeFree then
    (s.accept (.starveEnd n position length c.endMissed)).putStream n { c with endMissed := 0 }
  else s.putStream n { c with endMissed := missedAfterDrop c.endMissed }

/-- A MARK notice is offered (R38, R151). -/
def State.offerMark (s : State) (n : StreamNo) (tag : BitVec 32) (position : Position) : State :=
  let c := s.stream n
  if s.placeFree then
    (s.accept (.mark n tag position c.markMissed)).putStream n { c with markMissed := 0 }
  else s.putStream n { c with markMissed := missedAfterDrop c.markMissed }

/-- The state marks and positions that a TRIGGER notice carries (R91). -/
def State.triggerMarks (s : State) : List (GeneratorState × Position) :=
  Config.generators.map (fun g =>
    let x := s.generator g
    (x.state, if x.state == .off then 0 else x.position))

/-- A TRIGGER notice is offered (R91, R151). -/
def State.offerTrigger (s : State) (l : LineNo) (edge : Edge) : State :=
  let x := s.line l
  if s.placeFree then
    (s.accept (.trigger l edge x.missed s.triggerMarks)).putLine l { x with missed := 0 }
  else s.putLine l { x with missed := missedAfterDrop x.missed }

/-- The first `fuel` waiting REFERENCE_LOST reports are offered, in the order of their losses. -/
def offerLostFuel : Nat → State → State
  | 0, s => s
  | fuel + 1, s =>
    match s.timebase.lostReports with
    | [] => s
    | r :: rest =>
      if s.roomFor timebaseProducer then
        offerLostFuel fuel
          ({ s with timebase := { s.timebase with lostReports := rest } }.accept (.referenceLost r.generator r.position))
      else s

/-- The Timebase offers its waiting REFERENCE_LOST reports in the order of their losses; each generator has at
most one (R86). -/
def State.offerLost (s : State) : State := offerLostFuel 4 s

end Sys2Proof.Machine
end

