-- ==== Sys2Proof/Machine/ScheduleOps.lean ====
section
/-! DEFINITION. The Schedule Unit's shared operations (chapter 5): entry ids and creation, the decision of
a closing event and its offer, answers, removals and firing. -/

namespace Sys2Proof.Machine

/-- Change the entry that holds an id. -/
def State.modifyEntry (s : State) (id : EntryId) (f : ScheduleEntry → ScheduleEntry) : State :=
  { s with schedule := { s.schedule with
      entries := s.schedule.entries.map (fun e => if e.id == id then f e else e) } }

/-- The first id from `start` on that no entry of the table holds (R95). -/
def freeId (entries : List ScheduleEntry) : Nat → EntryId → EntryId
  | 0, start => start
  | fuel + 1, start =>
    if entries.any (fun e => e.id == start) then freeId entries fuel (start + 1) else start

/-- An entry leaves the table when its closing event is placed, its id is free, and the Command Unit no
longer waits for it (R108, R105, R134). -/
def State.placeClosing (s : State) (e : ScheduleEntry) (ev : Event) : State :=
  let s := s.accept ev
  { s with
    schedule := { s.schedule with
      entries := s.schedule.entries.filter (fun x => x.id != e.id)
      offering := s.schedule.offering.filter (fun id => id != e.id) }
    command := { s.command with entryWait := s.command.entryWait.filter (fun id => id != e.id) } }

/-- The Schedule Unit offers its closing events one at a time, in the offering order, until one must wait (R108). -/
def offerClosingFuel : Nat → State → State
  | 0, s => s
  | fuel + 1, s =>
    match s.offerableClosing with
    | none => s
    | some (e, ev) =>
      if s.roomFor scheduleProducer then offerClosingFuel fuel (s.placeClosing e ev) else s

/-- Offer whatever closing events may be offered now. -/
def State.offerSchedule (s : State) : State :=
  offerClosingFuel s.schedule.entries.length s

/-- An entry's closing event is decided: it takes its state and, unless an older entry that entered FIRING at
the same tick is still undecided, its place in the offering order; entries held behind it follow it in creation
order (R108). -/
def State.decideEntry (s : State) (id : EntryId) (state : EntryState) (ev : Event) : State :=
  let entries := s.schedule.entries.map (fun e =>
    let e := if e.id == id then { e with state := state, closing := some ev } else e
    { e with behind := e.behind.filter (fun x => x != id) })
  let ready := entries.filter (fun e =>
    e.closing.isSome && e.behind.isEmpty && !s.schedule.offering.contains e.id)
  { s with schedule := { s.schedule with
      entries := entries
      offering := s.schedule.offering ++ ready.map (fun e => e.id) } }

/-- The stop reason of a STOP entry (R103). -/
def Condition.stopReason : Condition → StopReason
  | .trigger _ => .trigger
  | _ => .atPosition

/-- The closing event of an entry whose streams have all answered or left, and the state it takes (R102, R103). -/
def ScheduleEntry.outcome (e : ScheduleEntry) : EntryState × Event :=
  if e.answered == 0 then
    (.clearedUnreported, .entryCleared e.id e.kind (e.lastRemoval.getD .streamsLeft))
  else
    match e.kind with
    | .start => (.firedUnreported, .startDone e.id e.generator e.answered (e.firePosition.getD 0) e.late)
    | .stop =>
      (.firedUnreported, .entryStopDone e.id e.generator e.answered e.condition.stopReason
        (e.firePosition.getD 0 - 1) e.late)

/-- An entry in FIRING is decided when every stream of its set has answered or been removed; an entry in
WAITING whose set is empty is cleared (R102, R105). -/
def State.examineEntry (s : State) (id : EntryId) : State :=
  match s.entry? id with
  | none => s
  | some e =>
    if (e.state == .firing && (e.streams &&& ~~~e.answered) == 0) || (e.state == .waiting && e.streams == 0) then
      (s.decideEntry id e.outcome.1 e.outcome.2).offerSchedule
    else s

/-- A stream answers "started" or "stopped" (R100, R101, R102). -/
def State.answerEntry (s : State) (id : EntryId) (n : StreamNo) : State :=
  match s.entry? id with
  | none => s
  | some e =>
    if e.state == .firing && e.streams.getLsbD n.val then
      (s.modifyEntry id (fun e => { e with answered := e.answered ||| streamBit n })).examineEntry id
    else s

/-- The Schedule Unit takes a removal claim (R104). -/
def State.removeFromEntry (s : State) (id : EntryId) (n : StreamNo) (reason : ClearReason) : State :=
  match s.entry? id with
  | none => s
  | some e =>
    if (e.state == .waiting || e.state == .firing) && e.streams.getLsbD n.val then
      (s.modifyEntry id (fun e =>
        { e with streams := e.streams &&& ~~~streamBit n, lastRemoval := some reason })).examineEntry id
    else s

/-- A stream hands the Schedule Unit a removal claim, which is taken as an event of its own (R104). -/
def State.handRemoval (s : State) (n : StreamNo) (reason : ClearReason) : State :=
  match (s.stream n).scheduleEntry with
  | none => s
  | some id => { s with schedule := { s.schedule with removals := s.schedule.removals ++ [⟨id, n, reason⟩] } }

/-- A WAITING entry is cleared by a claim (R106, R107). -/
def State.clearEntry (s : State) (id : EntryId) (reason : ClearReason) : State :=
  match s.entry? id with
  | none => s
  | some e =>
    if e.state == .waiting then (s.decideEntry id .clearedUnreported (.entryCleared id e.kind reason)).offerSchedule
    else s

/-- The Schedule Unit takes a generator's reference-loss claim: every WAITING entry on it is cleared (R107). That
their closing events are decided in table order is the model's (DESIGN CHOICE, log 31): no rule orders them. -/
def State.loseEntries (s : State) (g : GenNo) : State :=
  ((s.schedule.entries.filter (fun e => e.generator == g && e.state == .waiting)).map (fun e => e.id)).foldl
    (fun s id => s.clearEntry id .referenceLost) s

/-- The WAITING entries of a generator whose fire position its position has reached enter FIRING, in creation
order; each notes the older ones that do so at the same tick (R102, R108). -/
def fireEntries (g : GenNo) (position : Position) : List EntryId → List ScheduleEntry → List ScheduleEntry
  | _, [] => []
  | older, e :: rest =>
    if e.generator == g && e.state == .waiting && e.firePosition.any (fun f => f.toNat ≤ position.toNat) then
      { e with state := .firing, behind := older } :: fireEntries g position (older ++ [e.id]) rest
    else e :: fireEntries g position older rest

/-- A selected edge on a line makes its WAITING TRIGGER entries due (R98). -/
def State.makeDue (s : State) (l : LineNo) : State :=
  { s with schedule := { s.schedule with
      entries := s.schedule.entries.map (fun e =>
        if e.state == .waiting && e.condition == .trigger l && e.firePosition.isNone then
          { e with firePosition := some (nextPosition (s.generator e.generator).position) }
        else e) } }

/-- The fire position and the late flag of a new entry (R97, R98). -/
def fireAtCreation (condition : Condition) (target q : Position) : Option Position × Bool :=
  match condition with
  | .next => (some (nextPosition q), false)
  | .atPosition => if q.toNat < target.toNat then (some target, false) else (some (nextPosition q), true)
  | .trigger _ => (none, false)

/-- The entry that a START or STOP creates (R95, R96). -/
def State.newEntry (s : State) (kind : EntryKind) (g : GenNo) (condition : Condition) (target : Position)
    (set : StreamSet) : ScheduleEntry :=
  let fire := fireAtCreation condition target (s.generator g).position
  { id := freeId s.schedule.entries Config.schedulePlaces s.schedule.idCounter
    kind := kind
    generator := g
    condition := condition
    firePosition := fire.1
    late := fire.2
    streams := set
    answered := 0
    lastRemoval := none
    state := .waiting
    creationAnswered := false
    closing := none
    behind := [] }

/-- An entry joins the table and the id counter moves past its id (R95, R96). -/
def State.addEntry (s : State) (e : ScheduleEntry) : State :=
  { s with schedule := { s.schedule with entries := s.schedule.entries ++ [e], idCounter := e.id + 1 } }

end Sys2Proof.Machine
end

