-- ==== Sys2Proof/Machine/StreamOps.lean ====
section
/-! DEFINITION. The Stream Unit's shared operations (chapters 1 to 3): validation, the prefetch and the
write-back through the FIFO, retirement and the pending report, entering FAULTED, STOPPING, IDLE and CLOSED. -/

namespace Sys2Proof.Machine

/-! ### Records (sections 2.2 and 2.4) -/

/-- The checks made when a record is taken, in their order (R28). -/
def validate (c : Stream) (r : StreamRecord) : Option RejectReason :=
  if !r.isData && !r.isGap then some .unknownKind
  else if r.flags.toNat ≥ 8 then some .reservedFlags
  else if r.frameCount == 0 then some .zeroLength
  else if r.isData && c.direction == .capture && r.repeatCount != 0 then some .repeatOnCapture
  else if r.isData && r.address.toNat % (c.width / 8) != 0 then some .alignment
  else if r.isData && !fitsAddressSpace r.address (r.frameCount.toNat * c.frameSize) then some .addressWrap
  else none

/-- A record as it is staged (R31, R35). -/
def stageRecord (c : Stream) (r : StreamRecord) : StagedRecord where
  record := r
  ringIndex := c.consumer
  invalid := validate c r
  pass := 0
  progress := 0
  moved := 0
  firstPosition := none
  outstanding := 0
  failed := false
  finished := false
  retired := none

/-- A valid record with the END flag (R29, R32). -/
def StagedRecord.isEnd (r : StagedRecord) : Bool := r.invalid.isNone && r.record.endFlag

/-- Every frame of every pass has been fetched (R36), or every frame assigned (R37). -/
def StagedRecord.exhausted (r : StagedRecord) : Bool :=
  r.progress == r.record.frameCount.toNat && r.pass + 1 == r.record.passes

/-- The prefetch and the capture assignment serve the first valid record that is not exhausted (R29, R51, R59). -/
def StagedRecord.isOpen (r : StagedRecord) : Bool := r.invalid.isNone && !r.exhausted

/-- The first staged record with frames left to fetch or to assign. -/
def Stream.current (c : Stream) : Option StagedRecord := c.staging.find? StagedRecord.isOpen

/-- The staged record of a ring index; two records of one list never share one (R34). -/
def Stream.recordAt (c : Stream) (ring : Nat) : Option StagedRecord :=
  c.staging.find? (fun r => r.ringIndex == ring)

/-- Change the staged record of a ring index. -/
def Stream.modifyRecord (c : Stream) (ring : Nat) (f : StagedRecord → StagedRecord) : Stream :=
  { c with staging := c.staging.map (fun r => if r.ringIndex == ring then f r else r) }

/-- Frames fetched rise; at the end of a pass below the last the pass rises and they return to 0 (R36, R53). -/
def StagedRecord.advance (r : StagedRecord) (frames : Nat) : StagedRecord :=
  if r.progress + frames == r.record.frameCount.toNat && r.pass + 1 < r.record.passes then
    { r with progress := 0, pass := r.pass + 1 }
  else { r with progress := r.progress + frames }

/-! ### The FIFO (section 3.1) -/

/-- The number of free places (R49). -/
def Stream.freePlaces (c : Stream) : Nat := Config.fifoPlaces - c.fifo.length

/-- All bytes of the place have arrived. The head place is ready exactly then (R49). -/
def Place.isWhole (p : Place) : Bool := p.bytes.all Option.isSome

/-- The bytes of a place. -/
def Place.data (p : Place) : List Byte := p.bytes.map (fun b => b.getD 0)

/-- A place that a read reserves for a frame (R53). -/
def reservedPlace (frameSize ring pass frame : Nat) : Place where
  ring := ring
  pass := pass
  frame := frame
  gap := false
  bytes := List.replicate frameSize none
  issued := 0
  written := 0
  writes := 0
  givenUp := false

/-- A place that holds a GAP record's zero frame (R54). -/
def gapPlace (frameSize ring frame : Nat) : Place where
  ring := ring
  pass := 0
  frame := frame
  gap := true
  bytes := List.replicate frameSize (some 0)
  issued := 0
  written := 0
  writes := 0
  givenUp := false

/-- A place that a captured frame takes, in condition Assigned (R59). -/
def assignedPlace (ring frame : Nat) (bytes : List Byte) : Place where
  ring := ring
  pass := 0
  frame := frame
  gap := false
  bytes := bytes.map some
  issued := 0
  written := 0
  writes := 0
  givenUp := false

/-- Bytes of frame `frame` that lie in the `length` bytes from byte `offset` of a pass. -/
def overlap (frameSize frame offset length : Nat) : Nat :=
  min ((frame + 1) * frameSize) (offset + length) - max (frame * frameSize) offset

/-! ### Output prefetch (section 3.2) -/

/-- The prefetch places the zero frames of GAP records while one is the first record left to fetch and places
are free (R54). -/
def placeGaps : Nat → Stream → Stream
  | 0, c => c
  | fuel + 1, c =>
    match c.current with
    | none => c
    | some r =>
      let k := min c.freePlaces (r.record.frameCount.toNat - r.progress)
      if r.record.isGap && 0 < k then
        let places := (List.range k).map (fun i => gapPlace c.frameSize r.ringIndex (r.progress + i))
        let c := { c with fifo := c.fifo ++ places }
        placeGaps fuel (c.modifyRecord r.ringIndex (fun r => r.advance k))
      else c

/-- GAP placement in the states that prefetch (R7, R51, R54). -/
def Stream.prefetchGaps (c : Stream) : Stream :=
  if c.direction == .output && c.isTaking then placeGaps c.staging.length c else c

/-- Bytes from an address to the next multiple of 4096 (R52). -/
def bytesToBoundary (a : Addr) : Nat := Config.addressBlock - a.toNat % Config.addressBlock

/-- The length of a data transfer that starts `offset` bytes into a pass at address `a`, with `room` bytes
allowed by the fourth limit: cut back to the last whole frame it reaches, or, when it reaches none, ended at
the boundary (R52, R61). -/
def transferLength (frameSize frameCount : Nat) (a : Addr) (offset room : Nat) : Nat :=
  let reach := min (min Config.transferBytes (frameCount * frameSize - offset)) (min (bytesToBoundary a) room)
  let whole := (offset + reach) / frameSize * frameSize
  if offset < whole then whole - offset else reach

/-- The data read that an OUTPUT stream forms at a grant, from the record at its fetch point (R52). -/
def Stream.formRead (c : Stream) (n : StreamNo) (r : StagedRecord) : Transfer :=
  let offset := r.progress * c.frameSize + c.fetchSplit
  let address := r.record.address + BitVec.ofNat 64 offset
  let rest := if c.fetchSplit == 0 then 0 else c.frameSize - c.fetchSplit
  { requester := .streamData n
    item := .frames r.ringIndex r.pass offset
    isWrite := false
    address := address
    length := transferLength c.frameSize r.record.frameCount.toNat address offset (rest + c.frameSize * c.freePlaces)
    data := []
    discard := false }

/-- What the Stream Unit records at the grant of a data read of `length` bytes (R53). -/
def Stream.recordRead (c : Stream) (r : StagedRecord) (length : Nat) : Stream :=
  let offset := r.progress * c.frameSize + c.fetchSplit
  let stop := offset + length
  let firstNew := if c.fetchSplit == 0 then r.progress else r.progress + 1
  let lastNew := (stop + c.frameSize - 1) / c.frameSize
  let places := (List.range (lastNew - firstNew)).map
    (fun i => reservedPlace c.frameSize r.ringIndex r.pass (firstNew + i))
  let c' := { c with fifo := c.fifo ++ places, fetchSplit := stop % c.frameSize }
  c'.modifyRecord r.ringIndex
    (fun r => { r.advance (stop / c.frameSize - r.progress) with outstanding := r.outstanding + 1 })

/-- An OUTPUT stream presents a data request (R51). -/
def State.wantsRead (s : State) (n : StreamNo) : Bool :=
  let c := s.stream n
  c.direction == .output && c.isTaking && s.outstanding (.streamData n) < 2
    && c.current.any (fun r => r.record.isData) && (0 < c.freePlaces || c.fetchSplit != 0)

/-- Bytes `offset` onward of a pass fill the places that hold them (R55). -/
def fillPlace (frameSize ring pass offset : Nat) (data : List Byte) (p : Place) : Place :=
  if p.ring == ring && p.pass == pass && !p.gap && 0 < overlap frameSize p.frame offset data.length then
    { p with bytes := p.bytes.mapIdx (fun i b =>
        let at_ := p.frame * frameSize + i
        if offset ≤ at_ ∧ at_ < offset + data.length then some (data.getD (at_ - offset) 0) else b) }
  else p

/-! ### Capture write-back (section 3.4) -/

/-- A place with bytes that no issued write carries and that are still to be written (R61). -/
def Place.isUnwritten (frameSize : Nat) (p : Place) : Bool := p.issued < frameSize && !p.givenUp

/-- The write candidate: from the oldest place with bytes to write on, the places of its record (R61). -/
def Stream.candidate (c : Stream) : List Place :=
  let open_ := c.fifo.filter (Place.isUnwritten c.frameSize)
  match open_ with
  | [] => []
  | p :: _ => open_.takeWhile (fun q => q.ring == p.ring)

/-- The candidate is complete: it reaches 256 bytes, the next 4 KiB boundary or the record's last frame, or it
holds at least 8 frames (R61). -/
def Stream.candidateComplete (c : Stream) : Bool :=
  match c.candidate with
  | [] => false
  | p :: rest =>
    match c.recordAt p.ring with
    | none => false
    | some r =>
      let offset := p.frame * c.frameSize + p.issued
      let bytes := (rest.length + 1) * c.frameSize - p.issued
      let address := r.record.address + BitVec.ofNat 64 offset
      bytes ≥ Config.transferBytes || bytes ≥ bytesToBoundary address
        || p.frame + rest.length + 1 == r.record.frameCount.toNat || rest.length + 1 ≥ 8

/-- A CAPTURE stream presents a write request (R61). -/
def State.wantsWrite (s : State) (n : StreamNo) : Bool :=
  let c := s.stream n
  c.direction == .capture && c.isRunning && s.outstanding (.streamData n) < 2 && c.candidateComplete

/-- The bytes of a candidate that no issued write carries: what is left of its oldest frame, and the frames behind it. -/
def candidateBytes (p : Place) (rest : List Place) : List Byte :=
  p.data.drop p.issued ++ rest.flatMap Place.data

/-- The data write that a CAPTURE stream forms at a grant (R61). -/
def Stream.formWrite (c : Stream) (n : StreamNo) : Option Transfer :=
  match c.candidate with
  | [] => none
  | p :: rest =>
    match c.recordAt p.ring with
    | none => none
    | some r =>
      let offset := p.frame * c.frameSize + p.issued
      let address := r.record.address + BitVec.ofNat 64 offset
      let length := transferLength c.frameSize r.record.frameCount.toNat address offset
        ((rest.length + 1) * c.frameSize - p.issued)
      some
        { requester := .streamData n
          item := .frames p.ring 0 offset
          isWrite := true
          address := address
          length := length
          data := (candidateBytes p rest).take length
          discard := false }

/-- What the Stream Unit records at the grant of a data write: the bytes it carries of each place (R61). -/
def Stream.recordWrite (c : Stream) (ring offset length : Nat) : Stream :=
  let mark (p : Place) : Place :=
    let k := overlap c.frameSize p.frame offset length
    if p.ring == ring && 0 < k then { p with issued := p.issued + k, writes := p.writes + 1 } else p
  let c := { c with fifo := c.fifo.map mark }
  c.modifyRecord ring (fun r => { r with outstanding := r.outstanding + 1 })

/-- A completed write leaves its mark on a place whose bytes it carried (R62). -/
def Place.afterWrite (frameSize ring offset length : Nat) (ok : Bool) (p : Place) : Place :=
  let k := overlap frameSize p.frame offset length
  if p.ring == ring && 0 < k then
    if ok then { p with writes := p.writes - 1, written := p.written + k }
    else { p with writes := p.writes - 1, givenUp := true }
  else p

/-- The write that completes frees the place: none of its bytes is in an outstanding write, and all have been
issued or the frame is given up (R62). -/
def Place.freedBy (frameSize ring offset length : Nat) (p : Place) : Bool :=
  p.ring == ring && 0 < overlap frameSize p.frame offset length && p.writes == 0
    && (p.issued == frameSize || p.givenUp)

/-- A freed place whose every byte was written by writes that completed OK counts as a frame moved (R62). -/
def Place.counts (frameSize : Nat) (p : Place) : Bool := !p.givenUp && p.written == frameSize

/-- A capture record is finished when all its frames are assigned and written (R39). -/
def StagedRecord.markFinished (r : StagedRecord) : StagedRecord :=
  { r with finished := r.finished ||
      (r.progress == r.record.frameCount.toNat && r.moved == r.record.frameCount.toNat) }

/-- The completion of a data write (R62). -/
def Stream.completeWrite (c : Stream) (ring offset length : Nat) (ok : Bool) : Stream :=
  let places := c.fifo.map (Place.afterWrite c.frameSize ring offset length ok)
  let counted := places.countP (fun p => p.freedBy c.frameSize ring offset length && p.counts c.frameSize)
  let c' := { c with fifo := places.filter (fun p => !p.freedBy c.frameSize ring offset length) }
  c'.modifyRecord ring (fun r =>
    let r := { r with
      outstanding := r.outstanding - 1
      moved := r.moved + counted
      failed := r.failed || !ok }
    r.markFinished)

/-! ### Emptying the FIFO (R66) -/

/-- What R66 leaves of a capture FIFO: the places in outstanding writes, their unwritten parts given up. -/
def captureEmptied (frameSize : Nat) (places : List Place) : List Place :=
  (places.filter (fun p => p.writes != 0)).map
    (fun p => if p.issued < frameSize then { p with givenUp := true } else p)

/-- A transfer marked for discard when it is a data read of the stream (R66). -/
def Transfer.discarded (n : StreamNo) (t : Transfer) : Transfer :=
  if t.requester == .streamData n && !t.isWrite then { t with discard := true } else t

/-- Mark the outstanding data reads of a stream for discard (R66). -/
def State.discardReads (s : State) (n : StreamNo) : State :=
  Config.streams.foldl (fun s e => s.putTransfer e ((s.transfer e).map (Transfer.discarded n))) s

/-- On entry to STOPPING or FAULTED the stream empties its FIFO (R66). -/
def State.emptyFifo (s : State) (n : StreamNo) : State :=
  let c := s.stream n
  match c.direction with
  | .output => (s.discardReads n).putStream n { c with fifo := [], fetchSplit := 0 }
  | .capture => s.putStream n { c with fifo := captureEmptied c.frameSize c.fifo }

/-! ### Taking records (R30 to R32) -/

/-- The conditions on which a stream presents a record read (R30, R32, R64). -/
def State.wantsRecord (s : State) (n : StreamNo) : Bool :=
  let c := s.stream n
  c.isTaking && !c.readPresented && s.outstanding (.streamRecord n) == 0
    && c.staging.length < Config.stagingPlaces && c.producer != c.consumer
    && !c.staging.any StagedRecord.isEnd && !c.inTail
    && !(c.state == .draining && c.drainLimit == some c.consumer)

/-- The record is taken: staged at the tail, the consumer index advanced (R31). -/
def Stream.takeRecord (c : Stream) (r : StreamRecord) : Stream :=
  { c with staging := c.staging ++ [stageRecord c r], consumer := (c.consumer + 1) % c.ringSize }

/-! ### Entering a state -/

/-- A lane goes quiet at once (R72). -/
def State.quietLane (s : State) (n : StreamNo) : State := s.putPort n quietPort

/-- The Command Unit no longer waits for the stream (R129, R134). -/
def State.streamArrived (s : State) (n : StreamNo) : State :=
  { s with command := { s.command with streamWait := s.command.streamWait &&& ~~~streamBit n } }

/-- The context as it enters IDLE: the link fields of the state it leaves are absent (R5, R18). -/
def Stream.toIdle (c : Stream) : Stream :=
  { c with
    state := .idle
    drainLimit := none
    destination := none
    stopOrigin := none
    faultCause := none
    faultInRun := false
    drainAnswered := false
    stopReported := false
    stoppedFromFault := false
    answerTo := none }

/-- The stream enters IDLE at the end of a run or of STOPPING (R13, R15, R18). -/
def State.enterIdle (s : State) (n : StreamNo) : State :=
  (s.modifyStream n Stream.toIdle).streamArrived n

/-- The stream enters CLOSED: every field takes its CLOSED value and the lane goes quiet (R21, R24). -/
def State.enterClosed (s : State) (n : StreamNo) : State :=
  ((s.putStream n closedStream).quietLane n).streamArrived n

/-! ### Retirement and the pending report (section 2.6) -/

/-- The status with which the head record may retire, if it has one (R40, R45, R47). -/
def Stream.retireStatus (c : Stream) (noTransfers : Bool) (r : StagedRecord) : Option RetiredStatus :=
  if c.state == .closed then none
  else if c.isHalting then
    if noTransfers then
      some (if r.invalid.isSome then .rejected else if r.finished then .done
        else if r.failed then .aborted else .flushed)
    else none
  else if r.invalid.isSome then some .rejected
  else if r.finished then some .done
  else none

/-- The head record and its status, when it retires now (R40). -/
def State.retirableHead (s : State) (n : StreamNo) : Option (StagedRecord × RetiredStatus) :=
  let c := s.stream n
  match c.staging with
  | [] => none
  | r :: _ =>
    if r.outstanding == 0 && r.retired.isNone then
      (c.retireStatus (s.noTransfers n) r).map (fun st => (r, st))
    else none

/-- The BUFFER_DONE of a retired record (R43). -/
def bufferDone (n : StreamNo) (r : StagedRecord) (status : RetiredStatus) : Event :=
  if status == .rejected then
    .bufferDone n r.record.tag r.ringIndex status r.invalid 0 none false
  else
    .bufferDone n r.record.tag r.ringIndex status none r.moved r.firstPosition r.record.quietFlag

/-- What the placing of a stream's report brings about at the stream (R41, R13, R15, R18, R64). -/
def State.reportPlaced (s : State) (n : StreamNo) (e : Event) : State :=
  match e with
  | .bufferDone .. => s.modifyStream n (fun c => { c with staging := c.staging.tail })
  | .streamStopDone _ _ reason _ =>
    if reason == .command || (s.stream n).isRunning then s.enterIdle n else s
  | _ => s

/-- The stream produces a mandatory event: it is accepted at once or waits in the pending report (R41, R46). -/
def State.produce (s : State) (n : StreamNo) (e : Event) (drainRun : Bool) : State :=
  if !(drainRun && !(s.stream n).drainAnswered) && s.roomFor (streamProducer n) then
    (s.accept e).reportPlaced n e
  else s.modifyStream n (fun c => { c with pendingReport := some ⟨e, drainRun⟩ })

/-- The pending report of a stream is placed (R41, R150). -/
def State.placePending (s : State) (n : StreamNo) : State :=
  match (s.stream n).pendingReport with
  | none => s
  | some r =>
    ((s.accept r.event).modifyStream n (fun c => { c with pendingReport := none })).reportPlaced n r.event

/-- The head record retires: its status is set, an END record of a run ends it, and its BUFFER_DONE is
produced (R13, R41). -/
def State.retireHead (s : State) (n : StreamNo) (r : StagedRecord) (status : RetiredStatus) : State :=
  let c := s.stream n
  let ends := r.isEnd && status == .done && c.isRunning
  let s := if ends then s.handRemoval n .streamsLeft else s
  let s := s.modifyStream n (fun c =>
    { c with
      staging := match c.staging with
        | [] => []
        | r :: rest => { r with retired := some status } :: rest
      scheduleEntry := if ends then none else c.scheduleEntry
      stopOwed := if ends then some ⟨.endRecord, c.state == .draining⟩ else c.stopOwed })
  s.produce n (bufferDone n r status) false

/-- A drain completes when the staging list is empty and the consumer index equals the limit (R15, R65). -/
def Stream.drainComplete (c : Stream) : Bool :=
  c.state == .draining && c.staging.isEmpty && c.drainLimit == some c.consumer

/-- The three conditions on which STOPPING ends (R18); the pending report is examined before. -/
def State.stoppingEnds (s : State) (n : StreamNo) : Bool :=
  let c := s.stream n
  c.state == .stopping && c.staging.isEmpty && s.noTransfers n

/-- The end of STOPPING (R18, R64, R101, R203). -/
def State.endStopping (s : State) (n : StreamNo) : State :=
  let c := s.stream n
  match c.destination with
  | some .closed => s.enterClosed n
  | _ =>
    match c.stopOrigin with
    | some .entry =>
      match c.answerTo with
      | some id => (s.enterIdle n).answerEntry id n
      | none => s.enterIdle n
    | _ =>
      if c.stopReported then s.enterIdle n
      else
        let final := if c.stoppedFromFault && !c.faultInRun then 0 else c.finalPosition
        s.produce n (.streamStopDone n c.generator .command final) false

/-- The next thing the stream produces while its pending report is empty, in the order of R46; then the
completion of a drain and the end of STOPPING. `none` when there is nothing to do. -/
def State.settleStep (s : State) (n : StreamNo) : Option State :=
  let c := s.stream n
  if c.pendingReport.isSome then none
  else
    match c.faultOwed with
    | some (cause, position) =>
      some ((s.putStream n { c with faultOwed := none }).produce n (.streamFault n cause position) false)
    | none =>
      match s.retirableHead n with
      | some (r, status) => some (s.retireHead n r status)
      | none =>
        match c.stopOwed with
        | some o =>
          some ((s.putStream n { c with stopOwed := none }).produce n
            (.streamStopDone n c.generator o.reason c.finalPosition) o.drainRun)
        | none =>
          if c.drainComplete then some (s.putStream n { c with stopOwed := some ⟨.drain, true⟩ })
          else if s.stoppingEnds n then some (s.endStopping n)
          else none

/-- The stream does what `settleStep` gives until it must wait or has nothing left to do. -/
def settleFuel : Nat → StreamNo → State → State
  | 0, _, s => s
  | fuel + 1, n, s =>
    match s.settleStep n with
    | none => s
    | some s' => settleFuel fuel n s'

/-- A stream is examined after an event that can let it report (R40, R46): each staged record retires at most
once, and besides them it owes at most a STREAM_FAULT, two STOP_DONEs, a drain and the end of STOPPING. -/
def State.settle (s : State) (n : StreamNo) : State :=
  settleFuel ((s.stream n).staging.length + 6) n s

/-! ### Faults and stops (sections 1.6 and 1.7) -/

/-- The removal reason that a fault cause carries (R19, R104). -/
def FaultCause.clearReason : FaultCause → ClearReason
  | .referenceLost => .referenceLost
  | _ => .streamsLeft

/-- A stream enters FAULTED (R19). The caller has checked that it is in a state listed for the cause. It is not yet
examined. -/
def State.enterFaulted (s : State) (n : StreamNo) (cause : FaultCause) (position : Position) : State :=
  let c := s.stream n
  let inRun := c.isRunning && !c.inTail
  let s := (s.handRemoval n cause.clearReason).emptyFifo n
  s.modifyStream n (fun c =>
    { c with
      state := .faulted
      faultCause := some cause
      faultInRun := inRun
      scheduleEntry := none
      drainLimit := none
      faultOwed := some (cause, position) })

/-- A stream enters FAULTED and is examined (R19, R46). -/
def State.fault (s : State) (n : StreamNo) (cause : FaultCause) (position : Position) : State :=
  (s.enterFaulted n cause position).settle n

/-- A stream enters STOPPING: it takes no more records, empties its FIFO, and its drain limit, schedule entry
and fault cause are absent (R16, R20, R21, R5). It is not yet examined. -/
def State.enterStopping (s : State) (n : StreamNo) (destination : Destination) (origin : Option StopOrigin)
    (answerTo : Option EntryId) : State :=
  (s.emptyFifo n).modifyStream n (fun c =>
    { c with
      state := .stopping
      destination := some destination
      stopOrigin := origin
      drainLimit := none
      scheduleEntry := none
      faultCause := none
      stopReported := c.isEnded
      stoppedFromFault := c.state == .faulted
      answerTo := answerTo })

end Sys2Proof.Machine
end

