-- ==== Sys2Proof/Machine/CommandOps.lean ====
section
/-! DEFINITION. The Command Unit's answers (section 6.2), the arbiter of the Event Holding List (R150), and
the examination of a stream together with what it lets the Command Unit do. -/

namespace Sys2Proof.Machine

/-- What the placing of a CMD_DONE brings about: the Command Unit is READY, and the block that waits on the
answer is told (R123, R108, R137). -/
def State.cmdDonePlaced (s : State) (tell : Tell) : State :=
  let s := { s with command := { s.command with phase := .ready, inProgress := none, slot := none } }
  match tell with
  | .nobody => s
  | .entry id => (s.modifyEntry id (fun e => { e with creationAnswered := true })).offerSchedule
  | .drain n =>
    let c := s.stream n
    let held := c.reportGated
    let s := s.putStream n { c with drainAnswered := true }
    let s := if held && s.roomFor (streamProducer n) then s.placePending n else s
    s.settle n

/-- The CMD_DONE of the command in progress is produced with its 16-byte result (R122): accepted at once, or
waiting in REPORTING (R123). -/
def State.produceCmdDone (s : State) (status : Status) (result : List Byte) (tell : Tell) : State :=
  match s.command.inProgress with
  | none => s
  | some p =>
    let e := Event.cmdDone p.seq p.index status (padTo 16 result)
    if s.roomFor commandProducer then (s.accept e).cmdDonePlaced tell
    else
      { s with command := { s.command with
          phase := .reporting
          inProgress := some { p with tell := tell }
          slot := some e } }

/-- In COMPLETING, the CMD_DONE is produced when every wait set is empty (R120, R129, R134, R138). -/
def State.examineCommand (s : State) : State :=
  if s.command.phase == .completing && s.command.streamWait == 0 && s.command.entryWait.isEmpty then
    match s.command.inProgress with
    | none => s
    | some p => s.produceCmdDone .ok p.result .nobody
  else s

/-- A stream is examined, and then the Command Unit that may wait for it. -/
def State.settleStream (s : State) (n : StreamNo) : State :=
  (s.settle n).examineCommand

/-- The Command Unit enters COMPLETING with its answer and its wait sets (R120). -/
def State.awaitCompletion (s : State) (result : List Byte) (streams : StreamSet) (entries : List EntryId) : State :=
  { s with command := { s.command with
      phase := .completing
      inProgress := s.command.inProgress.map (fun p => { p with result := result })
      streamWait := streams
      entryWait := entries } }

/-! ### The arbiter of the Event Holding List (R150) -/

/-- The first waiting producer in circular order after the last served. -/
def State.nextWaiting (s : State) : Option Producer :=
  (producers.map (fun k => s.events.lastServed + 1 + k)).find? s.waits

/-- One grant (R150): the waiting event joins the tail, its producer is told, and what it then produces is offered.
What the grant lets another producer offer (a closing event or a drain's STOP_DONE whose gate a placed CMD_DONE opens, a
CMD_DONE or an entry's answer that the placed report allows) is offered too: accepted at once if no producer waits, and
else it waits and takes its turn in the same grants, which is the model's (DESIGN CHOICE, log 34). -/
def State.serve (s : State) (p : Producer) : State :=
  let s :=
    match p.val with
    | 0 =>
      match s.command.slot, s.command.inProgress with
      | some e, some c => (s.accept e).cmdDonePlaced c.tell
      | _, _ => s
    | 1 =>
      match s.offerableClosing with
      | some (e, ev) => (s.placeClosing e ev).offerSchedule.examineCommand
      | none => s
    | 2 =>
      match s.timebase.lostReports with
      | r :: rest =>
        let s := { s with timebase := { s.timebase with lostReports := rest } }
        (s.accept (.referenceLost r.generator r.position)).offerLost
      | [] => s
    | k + 3 => (s.placePending (Fin.ofNat 8 k)).settleStream (Fin.ofNat 8 k)
  { s with events := { s.events with lastServed := p } }

/-- Grants go on while places are free and producers wait (R150). -/
def grantPlacesFuel : Nat → State → State
  | 0, s => s
  | fuel + 1, s =>
    if s.placeFree then
      match s.nextWaiting with
      | none => s
      | some p => grantPlacesFuel fuel (s.serve p)
    else s

end Sys2Proof.Machine
end

