-- ==== Sys2Proof/Machine/TransferOps.lean ====
section
/-! DEFINITION. The Transfer Unit's arbiter and grants (section 8.4), the forming of event writes (R154, R155),
and the work that closes every step: prefetch, requests and grants. -/

namespace Sys2Proof.Machine

/-- The lowest-numbered free entry of the table (R172). -/
def State.freeEntry (s : State) : Option TransferId :=
  Config.streams.find? (fun e => (s.transfer e).isNone)

/-- Streams in circular order from the one after `last` (R177). -/
def circular (last : StreamNo) : List StreamNo := Config.streams.map (fun k => last + 1 + k)

/-- A data request of the stream is presented (R51, R61). -/
def State.wantsData (s : State) (n : StreamNo) : Bool := s.wantsRead n || s.wantsWrite n

/-- Urgency of a stream's data request (R176). -/
def Stream.isUrgent (c : Stream) : Bool :=
  c.isRunning &&
    match c.direction with
    | .output => c.fifo.length ≤ 8
    | .capture => c.fifo.length ≥ 24

/-! ### Event writes (section 7.3) -/

/-- Posted, in flight and free entries make up the ring (R153). -/
def EventUnit.free (e : EventUnit) : Nat := e.size - e.posted - e.inFlight

/-- The Event Unit presents an event write request (R154). -/
def State.wantsEventWrite (s : State) : Bool :=
  s.isActive && s.outstanding .eventWrite == 0 && !s.events.holding.isEmpty && 0 < s.events.free

/-- The address of the entry at an index (R153). -/
def EventUnit.address (e : EventUnit) (i : Nat) : Addr := e.base + BitVec.ofNat 64 (32 * i)

/-- How many events the next event write carries (R154). -/
def EventUnit.writeCount (e : EventUnit) : Nat :=
  min (min e.holding.length 4)
    (min e.free (min (e.size - e.writeIndex) (bytesToBoundary (e.address e.writeIndex) / 32)))

/-- The event write formed at its grant (R154, R155, R199). -/
def EventUnit.formWrite (e : EventUnit) : Transfer :=
  let k := e.writeCount
  { requester := .eventWrite
    item := .entries k
    isWrite := true
    address := e.address e.writeIndex
    length := 32 * k
    data := (e.holding.take k).flatMap (fun h => encodeEvent e.cycle h.event)
    discard := false }

/-- What the Event Unit does at the grant (R155, R158). -/
def EventUnit.recordWrite (e : EventUnit) : EventUnit :=
  let k := e.writeCount
  let wraps := e.writeIndex + k == e.size
  { e with
    holding := (e.holding.take k).map (fun h => { h with inWrite := true }) ++ e.holding.drop k
    inFlight := e.inFlight + k
    writeIndex := if wraps then 0 else e.writeIndex + k
    cycle := if wraps then !e.cycle else e.cycle }

/-! ### The other requests -/

/-- The Command Unit's read request waits for its grant (R117). -/
def State.wantsCommand (s : State) : Bool :=
  s.isActive && s.command.phase == .fetching && s.outstanding .commandRecord == 0

/-- The Root Block read is presented in LOADING (R186). -/
def State.wantsRoot (s : State) : Bool :=
  !s.pin && s.engine.state == .loading && s.outstanding .rootBlock == 0

/-- The read of a 64-byte command record (R117). -/
def CommandUnit.formRead (c : CommandUnit) : Transfer where
  requester := .commandRecord
  item := .slot c.consumer
  isWrite := false
  address := c.base + BitVec.ofNat 64 (64 * c.consumer)
  length := 64
  data := []
  discard := false

/-- The read of a 32-byte stream record (R30). -/
def Stream.formRecordRead (c : Stream) (n : StreamNo) : Transfer where
  requester := .streamRecord n
  item := .slot c.consumer
  isWrite := false
  address := c.ringBase + BitVec.ofNat 64 (32 * c.consumer)
  length := 32
  data := []
  discard := false

/-- The read of the Root Block (R186). -/
def EngineControl.formRead (e : EngineControl) : Transfer where
  requester := .rootBlock
  item := .rootBlock
  isWrite := false
  address := e.rootPointer
  length := 64
  data := []
  discard := false

/-! ### Grants (R175 to R177) -/

/-- The grant of a stream's data request: the transfer is formed and issued (R53, R61). -/
def State.grantData (s : State) (e : TransferId) (n : StreamNo) : State :=
  let c := s.stream n
  match c.direction with
  | .output =>
    match c.current with
    | none => s
    | some r =>
      let t := c.formRead n r
      (s.putTransfer e (some t)).putStream n (c.recordRead r t.length).prefetchGaps
  | .capture =>
    match c.formWrite n with
    | none => s
    | some t =>
      match t.item with
      | .frames ring _ offset => (s.putTransfer e (some t)).putStream n (c.recordWrite ring offset t.length)
      | _ => s

/-- The grant of a stream's record read (R30). -/
def State.grantRecord (s : State) (e : TransferId) (n : StreamNo) : State :=
  (s.putTransfer e (some ((s.stream n).formRecordRead n))).modifyStream n (fun c => { c with readPresented := false })

/-- One grant of the arbiter, to the first class that holds a presented request (R175, R177). -/
def State.grantOne (s : State) : Option State :=
  match s.freeEntry with
  | none => none
  | some e =>
    if s.wantsRoot then some (s.putTransfer e (some s.engine.formRead))
    else
      match (circular s.transfers.lastUrgent).find? (fun n => s.wantsData n && (s.stream n).isUrgent) with
      | some n =>
        let s := s.grantData e n
        some { s with transfers := { s.transfers with lastUrgent := n } }
      | none =>
        if s.wantsEventWrite then
          some ({ s with events := s.events.recordWrite }.putTransfer e (some s.events.formWrite))
        else if s.wantsCommand then some (s.putTransfer e (some s.command.formRead))
        else
          match (circular s.transfers.lastData).find? s.wantsData with
          | some n =>
            let s := s.grantData e n
            some { s with transfers := { s.transfers with lastData := n } }
          | none =>
            match (circular s.transfers.lastRecord).find? (fun n => (s.stream n).readPresented) with
            | some n =>
              let s := s.grantRecord e n
              some { s with transfers := { s.transfers with lastRecord := n } }
            | none => none

/-- Grants go on until the entries are all occupied or no request is presented (R175). -/
def grantFuel : Nat → State → State
  | 0, s => s
  | fuel + 1, s =>
    match s.grantOne with
    | none => s
    | some s' => grantFuel fuel s'

/-- A stream places GAP frames and presents a record read when its conditions hold (R30, R54). -/
def State.present (s : State) (n : StreamNo) : State :=
  let s := s.modifyStream n Stream.prefetchGaps
  if s.wantsRecord n then s.modifyStream n (fun c => { c with readPresented := true }) else s

/-- The Command Unit presents its read, or withdraws it before the grant (R117). -/
def State.presentCommand (s : State) : State :=
  let c := s.command
  if c.phase == .ready && c.producer != c.consumer then { s with command := { c with phase := .fetching } }
  else if s.wantsCommand && c.producer == c.consumer then { s with command := { c with phase := .ready } }
  else s

/-- The end of every step: in ACTIVE the requests are presented, and in ISSUE the arbiter grants (R174, R175). -/
def State.finish (s : State) : State :=
  let s := if s.isActive then (Config.streams.foldl State.present s).presentCommand else s
  if s.transfers.mode == .issue then grantFuel 8 s else s

end Sys2Proof.Machine
end

