-- ==== Sys2Proof/Machine/EngineOps.lean ====
section
/-! DEFINITION. Engine Control's shared operations (chapter 9): halting, quiesce and the resets; and the
routing of a transfer's completion (R178, R179). -/

namespace Sys2Proof

open Machine

/-- The Root Block is valid (R187, section 10.2). -/
def RootBlock.isValid (b : RootBlock) : Bool :=
  b.controlBase.toNat % 64 == 0
    && isPowerOfTwo b.controlSize.toNat && 16 ≤ b.controlSize.toNat && b.controlSize.toNat ≤ 1024
    && b.eventBase.toNat % 32 == 0
    && isPowerOfTwo b.eventSize.toNat && 64 ≤ b.eventSize.toNat && b.eventSize.toNat ≤ 4096
    && 1 ≤ b.threshold.toNat && b.threshold.toNat ≤ 64
    && b.holdoff.toNat ≤ 1000
    && b.reserved21 == 0 && b.reserved24 == 0
    && fitsAddressSpace b.controlBase (64 * b.controlSize.toNat)
    && fitsAddressSpace b.eventBase (32 * b.eventSize.toNat)

end Sys2Proof

namespace Sys2Proof.Machine

/-- The Outstanding Transfer Table is empty. -/
def State.tableEmpty (s : State) : Bool := s.transfers.table.toList.all Option.isNone

/-- ENABLE as Device Control reads it (R184). -/
def EngineState.enabled : EngineState → Bool
  | .loading => true
  | .active => true
  | .halted => true
  | _ => false

/-- The freeze of HALTED and QUIESCING (R190): every lane goes quiet (R72) and the holdoff timer stops (R166); every
block keeps the rest of its state as it stood. -/
def State.freeze (s : State) : State :=
  { s with
    ports := Vector.replicate 8 quietPort
    events := { s.events with timerRunning := false } }

/-- The Transfer Unit enters SETTLE (R174). -/
def State.settleTransfers (s : State) : State :=
  { s with transfers := { s.transfers with mode := .settle, lead := 0 } }

/-- The values of a full reset (R193 and the reset tables); the pin and the model's own fields stay. -/
def State.fullReset (s : State) : State :=
  { State.reset with
    pin := s.pin
    orderChoices := s.orderChoices
    claimChoices := s.claimChoices
    pending := s.pending }

/-- The end of quiesce: every block takes its values after an engine disable; INTERRUPT_ENABLE, Root Pointer
and Fault Address are kept (R192, R182). -/
def State.endQuiesce (s : State) : State :=
  let r := s.fullReset
  { r with
    engine := { r.engine with
      interruptEnable := s.engine.interruptEnable
      rootPointer := s.engine.rootPointer }
    transfers := { r.transfers with faultAddress := s.transfers.faultAddress } }

/-- Quiesce ends when the table is empty (R183, R192). -/
def State.examineQuiesce (s : State) : State :=
  if s.engine.state == .quiescing && s.tableEmpty then s.endQuiesce else s

/-- The engine enters HALTED: the cause and HALT are set and every block is frozen (R189, R190). -/
def State.enterHalted (s : State) (cause : HaltCause) : State :=
  { s.freeze.settleTransfers with engine := { s.engine with state := .halted, cause := cause, halt := true } }

/-- Engine Control takes a fatal claim: it halts the engine in LOADING and ACTIVE, and has no effect otherwise (R189). -/
def State.fatalClaim (s : State) (cause : HaltCause) : State :=
  if s.engine.state == .loading || s.engine.state == .active then s.enterHalted cause else s

/-- How many completions the Transfer Unit will take ahead of the claim that the engine is QUIESCING: a free value,
the first of `claimChoices` (log 32). -/
def State.chooseLead (s : State) : State :=
  { s with
    transfers := { s.transfers with lead := s.claimChoices.headD 0 }
    claimChoices := s.claimChoices.tail }

/-- The Transfer Unit takes the claim that the engine is QUIESCING (R174, R181), unless it takes a completion first:
it enters SETTLE, and quiesce ends at once when its table is empty (R183). -/
def State.takeQuiesceClaim (s : State) : State :=
  if s.transfers.mode == .issue && s.transfers.lead != 0 && !s.tableEmpty then s
  else s.settleTransfers.examineQuiesce

/-- The engine enters QUIESCING (R191): the freeze begins, and the claim goes to the Transfer Unit. -/
def State.enterQuiescing (s : State) : State :=
  let s := { s.freeze with engine := { s.engine with state := .quiescing } }
  (if s.transfers.mode == .issue && !s.tableEmpty then s.chooseLead else s).takeQuiesceClaim

/-- ENABLE is set in OFF (R186): the engine enters LOADING, and HALTED at once when the Root Pointer is not a
multiple of 64; otherwise the Root Block read is presented. -/
def State.enterLoading (s : State) : State :=
  let s := { s with engine := { s.engine with state := .loading } }
  if s.engine.rootPointer.toNat % 64 != 0 then s.enterHalted .rootInvalid
  else { s with transfers := { s.transfers with mode := .issue } }.finish

/-- On entry to ACTIVE the Root Block copy goes to its two users (R188, R114, R153, R166). -/
def State.enterActive (s : State) (b : RootBlock) : State :=
  { s with
    engine := { s.engine with state := .active, root := some b }
    command := { s.command with
      base := b.controlBase
      size := b.controlSize.toNat
      producer := 0
      consumer := 0 }
    events := { s.events with
      base := b.eventBase
      size := b.eventSize.toNat
      threshold := b.threshold.toNat
      holdoff := b.holdoff.toNat
      writeIndex := 0
      releaseIndex := 0
      cycle := true
      posted := 0
      inFlight := 0
      count := 0
      timerRunning := false } }

/-- A Device Control write: its fields are taken together (R185, R200). -/
def State.writeDeviceControl (s : State) (w : BitVec 32) : State :=
  if wordReset w then s.fullReset
  else
    let s := { s with engine := { s.engine with interruptEnable := wordInterruptEnable w } }
    match wordEnable w, s.engine.state with
    | true, .off => s.enterLoading
    | false, .loading => s.enterQuiescing
    | false, .active => s.enterQuiescing
    | false, .halted => s.enterQuiescing
    | _, _ => s

/-! ### Completions (section 8.5) -/

/-- One completion fewer is taken ahead of the quiesce claim. -/
def State.countEarly (s : State) : State :=
  { s with transfers := { s.transfers with lead := s.transfers.lead - 1 } }

/-- A transfer's completion reaches the Transfer Unit. A completion that names a free entry changes nothing, and
one of another requester than the entry's cannot arise (log 3). The entry is freed; in ISSUE `handed` gives the
effect and the step closes with the arbiter, in SETTLE the completion is discarded and quiesce may end (R178, R183).
In ISSUE of an engine that is QUIESCING the completion is taken ahead of the quiesce claim: `early` gives its effect,
nothing is granted after it, and the claim may follow (R174, R181). -/
def State.complete (s : State) (entry : TransferId) (isFor : Transfer → Bool) (early handed : Transfer → State → State) :
    State :=
  if s.pin then s
  else
    match s.transfer entry with
    | none => s
    | some t =>
      if !isFor t then s
      else
        let freed := s.putTransfer entry none
        if s.transfers.mode != .issue then freed.examineQuiesce
        else if s.engine.state == .quiescing then (early t freed).countEarly.takeQuiesceClaim
        else (handed t freed).finish

/-- An OK completion. Taken ahead of the quiesce claim it reaches a requester that is frozen and takes nothing
(R190, log 32). -/
def State.completeOk (s : State) (entry : TransferId) (isFor : Transfer → Bool) (handed : Transfer → State → State) :
    State :=
  s.complete entry isFor (fun _ s => s) handed

/-- An ERROR completion taken in ISSUE records its failing address (R180). -/
def State.recordFault (s : State) (t : Transfer) : State :=
  { s with transfers := { s.transfers with faultAddress := t.address } }

/-- A fatal ERROR completion: the Transfer Unit enters SETTLE and hands Engine Control the claim (R179). -/
def State.fatalError (s : State) (t : Transfer) (cause : HaltCause) : State :=
  (s.recordFault t).settleTransfers.fatalClaim cause

/-- The completion of a transfer whose failure is fatal, with ERROR: its effect is the same ahead of the quiesce claim,
where Engine Control discards the fatal claim (R179, R181, R189). -/
def State.completeFatal (s : State) (entry : TransferId) (r : Requester) (cause : HaltCause) : State :=
  s.complete entry (fun t => t.requester == r) (fun t s => s.fatalError t cause) (fun t s => s.fatalError t cause)

/-- The completion is of the requester `r`. -/
def Transfer.isOf (r : Requester) (t : Transfer) : Bool := t.requester == r

/-- The completion is of a stream's data read, or of its data write. -/
def Transfer.isData (write : Bool) (t : Transfer) : Bool :=
  match t.requester with
  | .streamData _ => t.isWrite == write
  | _ => false

/-- The completion is of a stream's record read. -/
def Transfer.isRecordRead (t : Transfer) : Bool :=
  match t.requester with
  | .streamRecord _ => true
  | _ => false

/-! ### Ring Notify (section 8.2) -/

/-- A refused notify sets NOTIFY_ERROR and changes nothing else (R171). -/
def State.refuseNotify (s : State) : State := { s with notifyError := true }

/-- The Command Unit takes a notify (R114, R170). -/
def State.notifyCommand (s : State) (index : Nat) : State :=
  if index < s.command.size then { s with command := { s.command with producer := index } }.finish
  else s.refuseNotify

/-- The Stream Unit takes a notify (R3, R170, R202). -/
def State.notifyStream (s : State) (n : StreamNo) (index : Nat) : State :=
  if (s.stream n).state != .closed && index < (s.stream n).ringSize then
    (s.modifyStream n (fun c => { c with producer := index })).finish
  else s.refuseNotify

/-- The number of entries a release frees, or `none` when it reaches beyond the posted count (R159). -/
def EventUnit.released (e : EventUnit) (index : Nat) : Option Nat :=
  let n := (index + e.size - e.releaseIndex) % e.size
  if n == 0 then some (if e.posted == e.size then e.size else 0)
  else if n ≤ e.posted then some n
  else none

/-- The Event Unit takes a release (R159, R164). -/
def State.releaseEvents (s : State) (index : Nat) : State :=
  if index < s.events.size then
    match s.events.released index with
    | some n =>
      { s with events := { s.events with
          releaseIndex := index
          posted := s.events.posted - n
          pending := false } }.finish
    | none => s.refuseNotify
  else s.refuseNotify

/-- A Ring Notify write: the Register Window decodes and checks it, and its ring's owner takes it (R169, R170). -/
def State.writeRingNotify (s : State) (w : BitVec 32) : State :=
  if s.engine.state != .active then s.refuseNotify
  else
    match notifyRing w with
    | 0 => s.notifyCommand (notifyIndex w)
    | k + 1 =>
      if k < 8 then s.notifyStream (Fin.ofNat 8 k) (notifyIndex w)
      else if k == 8 then s.releaseEvents (notifyIndex w)
      else s.refuseNotify

/-- A Device Status write takes bit 8 alone (R171, R195, R200). -/
def State.writeDeviceStatus (s : State) (w : BitVec 32) : State :=
  if wordNotifyError w then { s with notifyError := false } else s

/-- A write of one word of Root Pointer, taken in OFF (R194). -/
def State.writeRootPointer (s : State) (high : Bool) (w : BitVec 32) : State :=
  if s.engine.state == .off then
    let p := s.engine.rootPointer
    { s with engine := { s.engine with
        rootPointer := if high then w ++ p.setWidth 32 else (p.extractLsb' 32 32) ++ w } }
  else s

/-- A host write of `width` bytes at `offset` of the window: only an aligned 32-bit write reaches a register,
read-only registers and unmapped words discard it, and the window discards all while the pin is asserted
(R168, R193, section 10.7). -/
def State.writeWindow (s : State) (offset width : Nat) (value : BitVec 64) : State :=
  let w := value.setWidth 32
  if s.pin || width != 4 then s
  else
    match offset with
    | 0x04 => s.writeDeviceControl w
    | 0x08 => s.writeDeviceStatus w
    | 0x10 => s.writeRootPointer false w
    | 0x14 => s.writeRootPointer true w
    | 0x18 => s.writeRingNotify w
    | _ => s

end Sys2Proof.Machine
end

