-- ==== Sys2Proof/Machine/Flags.lean ====
section
/-! DEFINITION. The flags and the words the host reads: the interrupt line, the status registers and every
register of the window (R165, R194 to R197, R200, section 10.7). -/

namespace Sys2Proof.Machine

/-- The level of the interrupt line (R165). -/
def State.lineLevel (s : State) : Bool :=
  s.engine.interruptEnable && (s.events.pending || s.engine.halt)

/-- The halt cause as Device Status shows it: NONE outside HALTED and a QUIESCING entered from HALTED (R195). -/
def State.shownCause (s : State) : HaltCause := s.engine.cause

/-- Identity: revision 1, family code 1Ch, part code 2408h (R194). -/
def identityWord : BitVec 32 := 0x24081C01

/-- Device Control as it reads: RESET reads 0 (R185, R200). -/
def State.deviceControlWord (s : State) : BitVec 32 :=
  BitVec.ofNat 32 (s.engine.state.enabled.toNat + 4 * s.engine.interruptEnable.toNat)

/-- Device Status as it reads (R195). -/
def State.deviceStatusWord (s : State) : BitVec 32 :=
  BitVec.ofNat 32
    (engineStateCode s.engine.state + 16 * haltCauseCode s.shownCause + 256 * s.notifyError.toNat)

/-- Interrupt Status as it reads (R196). -/
def State.interruptStatusWord (s : State) : BitVec 32 :=
  BitVec.ofNat 32 (s.events.pending.toNat + 2 * s.engine.halt.toNat + 4 * s.lineLevel.toNat)

/-- What a host read of `width` bytes at `offset` returns; it changes nothing (R168, R193, R194 to R197). -/
def State.readWindow (s : State) (offset width : Nat) : BitVec 32 :=
  if s.pin || width != 4 then 0
  else
    match offset with
    | 0x00 => identityWord
    | 0x04 => s.deviceControlWord
    | 0x08 => s.deviceStatusWord
    | 0x10 => s.engine.rootPointer.setWidth 32
    | 0x14 => s.engine.rootPointer.extractLsb' 32 32
    | 0x1C => s.interruptStatusWord
    | 0x20 => s.transfers.faultAddress.setWidth 32
    | 0x24 => s.transfers.faultAddress.extractLsb' 32 32
    | _ => 0

end Sys2Proof.Machine
end

