-- ==== Sys2Proof/Machine/Commands.lean ====
section
/-! DEFINITION. Taking a command (R118) and answering it, and the commands NOP, CANCEL, SET_TRIGGER and QUERY
with the unknown kind (R121, R124, R138 to R142). -/

namespace Sys2Proof.Machine

/-- The command record read completes OK: the command is taken and executed at that same event (R118, R120). The
step closes with the Command Unit's next request and the arbiter. -/
def State.takeCommand (s : State) (entry : TransferId) (record : Instr) (seq : BitVec 16)
    (execute : State → State) : State :=
  s.completeOk entry (Transfer.isOf .commandRecord) (fun t s =>
    let index := match t.item with
      | .slot i => i
      | _ => s.command.consumer
    execute { s with command := { s.command with
      consumer := (s.command.consumer + 1) % s.command.size
      inProgress := some ⟨record, index, seq, [], .nobody⟩ } })

/-- A refused command changes the state of no block and its result is all zero (R121). -/
def State.refuse (s : State) (status : Status) : State := s.produceCmdDone status [] .nobody

/-- The command is answered OK at its execution. -/
def State.answerOk (s : State) (result : List Byte) : State := s.produceCmdDone .ok result .nobody

/-- Checks in order: the status of the first that fails, or `none` when every one passes (R121). -/
def firstFailure : List (Bool × Status) → Option Status
  | [] => none
  | (passes, status) :: rest => if passes then firstFailure rest else some status

/-- NOP: no checks but the kind, no state changed (R124). -/
def execNop (entry : TransferId) (seq : BitVec 16) (s : State) : Host.Outcome State Fault Refusal :=
  .next (s.takeCommand entry (.nop entry seq) seq (fun s => s.answerOk []))

/-- A record whose kind is none of the eleven is refused with UNKNOWN (R121). -/
def execUnknownCommandKind (entry : TransferId) (seq : BitVec 16) (kind : BitVec 8) (s : State) :
    Host.Outcome State Fault Refusal :=
  .next (s.takeCommand entry (.unknownCommandKind entry seq kind) seq (fun s => s.refuse .unknown))

/-- A stream takes the return claim of a cancelled entry: one of a START entry that is ARMED in it returns to
IDLE, one of a STOP entry is no longer named; any other claim is ignored (R11, R106). -/
def Stream.returned (c : Stream) (e : ScheduleEntry) : Stream :=
  if c.scheduleEntry != some e.id then c
  else
    match e.kind with
    | .start => if c.state == .armed then { c with state := .idle, scheduleEntry := none, drainAnswered := false } else c
    | .stop => { c with scheduleEntry := none }

/-- The streams of a cancelled entry take the return claim at once, ahead of every later tick (R99, R106). -/
def State.returnStreams (s : State) (e : ScheduleEntry) : State :=
  (streamsOf e.streams).foldl (fun s n => s.modifyStream n (fun c => c.returned e)) s

/-- CANCEL (R138, R106). -/
def State.cancel (s : State) (target : EntryId) : State :=
  match s.entry? target with
  | none => s.refuse .badParam
  | some e =>
    if e.state != .waiting then s.refuse .badParam
    else
      let result := leBytes 1 e.id.toNat ++ leBytes 1 (entryKindCode e.kind) ++ leBytes 1 e.streams.toNat
      (((s.returnStreams e).awaitCompletion result 0 [e.id]).clearEntry e.id .cancelled).examineCommand

def execCancel (entry : TransferId) (seq : BitVec 16) (target : EntryId) (s : State) :
    Host.Outcome State Fault Refusal :=
  .next (s.takeCommand entry (.cancel entry seq target) seq (fun s => s.cancel target))

/-- An entry with condition TRIGGER on the line is WAITING (R89, R139). -/
def State.lineAwaited (s : State) (l : LineNo) : Bool :=
  s.schedule.entries.any (fun e => e.condition == .trigger l && e.state == .waiting)

/-- SET_TRIGGER (R139, R89). -/
def State.setTrigger (s : State) (line selection report : BitVec 8) : State :=
  match lineOf line, selectionOf selection, reportOf report with
  | some l, some sel, some rep =>
    if sel == .noEdge && s.lineAwaited l then s.refuse .busy
    else (s.putLine l { s.line l with selection := sel, report := rep }).answerOk []
  | _, _, _ => s.refuse .badParam

def execSetTrigger (entry : TransferId) (seq : BitVec 16) (line selection report : BitVec 8) (s : State) :
    Host.Outcome State Fault Refusal :=
  .next (s.takeCommand entry (.setTrigger entry seq line selection report) seq
    (fun s => s.setTrigger line selection report))

/-- A page of a stream; every byte is 0 for a CLOSED stream (R141, section 10.6). -/
def State.streamPage (s : State) (n : StreamNo) (page : BitVec 8) : Option (List Byte) :=
  let c := s.stream n
  let open_ (bytes : List Byte) : List Byte := if c.state == .closed then [] else bytes
  match page.toNat with
  | 0 => some (open_ (statePage c))
  | 1 => some (open_ (positionsPage c (s.generator c.generator).position))
  | 2 => some (open_ (framesPage c))
  | 3 => some (open_ (starvePage c))
  | _ => none

/-- REFERENCE_LOST of the generator waits in its pending slot (R86). -/
def State.lostWaiting (s : State) (g : GenNo) : Bool :=
  s.timebase.lostReports.any (fun r => r.generator == g)

/-- A page of a generator (R142). -/
def State.generatorPage (s : State) (g : GenNo) (page : BitVec 8) : Option (List Byte) :=
  match page.toNat with
  | 0 =>
    some (configPage (s.generator g) (s.lostWaiting g)
      (setOf ((s.boundStreams g).filter (fun n => (s.stream n).state != .closed))))
  | 1 => some (positionPage (s.generator g))
  | _ => none

/-- The page a QUERY names, `none` when its target kind, number or page is out of range (R140). -/
def State.queryPage (s : State) (targetKind target page : BitVec 8) : Option (List Byte) :=
  match targetKind.toNat with
  | 0 => (streamOf target).bind (fun n => s.streamPage n page)
  | 1 => (generatorOf target).bind (fun g => s.generatorPage g page)
  | _ => none

/-- QUERY (R140 to R142). -/
def execQuery (entry : TransferId) (seq : BitVec 16) (targetKind target page : BitVec 8) (s : State) :
    Host.Outcome State Fault Refusal :=
  .next (s.takeCommand entry (.query entry seq targetKind target page) seq (fun s =>
    match s.queryPage targetKind target page with
    | some bytes => s.answerOk bytes
    | none => s.refuse .badParam))

end Sys2Proof.Machine
end

