-- ==== Sys2Proof/Machine/OpenClose.lean ====
section
/-! DEFINITION. OPEN_STREAM and CLOSE_STREAM (sections 1.3, 1.8 and 6.4). -/

namespace Sys2Proof.Machine

/-- The context that OPEN_STREAM initialises, `none` when a parameter is out of range: every range check of R8
gives BAD_PARAM, so their order does not show (R8, R128, R198). -/
def openedStream (p : OpenParams) : Option Stream :=
  match directionOf p.direction, generatorOf p.generator, levelOf p.idleLevel, changeEdgeOf p.changeEdge,
    syncFormOf p.syncForm, policyOf p.policy with
  | some direction, some generator, some idleLevel, some changeEdge, some syncForm, some policy =>
    let slots := p.slots.toNat
    let width := p.width.toNat
    let size := p.size.toNat
    let start := p.start.toNat
    if 1 ≤ slots ∧ slots ≤ 8 ∧ (width = 16 ∨ width = 32)
        ∧ ¬(policy = .repeatFrame ∧ direction = .capture)
        ∧ p.base.toNat % 32 = 0
        ∧ isPowerOfTwo size ∧ 16 ≤ size ∧ size ≤ 4096
        ∧ start < size
        ∧ fitsAddressSpace p.base (32 * size) then
      some { closedStream with
        state := .idle
        direction := direction
        generator := generator
        slots := slots
        width := width
        idleLevel := idleLevel
        changeEdge := changeEdge
        syncForm := syncForm
        policy := policy
        ringBase := p.base
        ringSize := size
        producer := start
        consumer := start
        lastFrame := List.replicate (slots * width / 8) 0 }
    else none
  | _, _, _, _, _, _ => none

/-- OPEN_STREAM (R128, R8). -/
def State.openStream (s : State) (p : OpenParams) : State :=
  match streamOf p.stream with
  | none => s.refuse .badParam
  | some n =>
    if (s.stream n).state != .closed then s.refuse .badState
    else
      match openedStream p with
      | none => s.refuse .badParam
      | some c => (s.putStream n c).answerOk []

def execOpenStream (entry : TransferId) (seq : BitVec 16) (params : OpenParams) (s : State) :
    Host.Outcome State Fault Refusal :=
  .next (s.takeCommand entry (.openStream entry seq params) seq (fun s => s.openStream params))

/-- CLOSE_STREAM (R129, R21): the answer waits until the stream enters CLOSED. -/
def State.closeStream (s : State) (number : BitVec 8) : State :=
  match streamOf number with
  | none => s.refuse .badParam
  | some n =>
    let c := s.stream n
    if c.state != .idle && c.state != .faulted then s.refuse .badState
    else
      (((s.awaitCompletion [] (streamBit n) []).enterStopping n .closed none none).settle n).examineCommand

def execCloseStream (entry : TransferId) (seq : BitVec 16) (stream : BitVec 8) (s : State) :
    Host.Outcome State Fault Refusal :=
  .next (s.takeCommand entry (.closeStream entry seq stream) seq (fun s => s.closeStream stream))

end Sys2Proof.Machine
end

