-- ==== Sys2Proof/Machine/Generators.lean ====
section
/-! DEFINITION. The generator commands (sections 4.1, 4.2 and 6.3). -/

namespace Sys2Proof.Machine

/-- The frequency a generator counts: an oscillator's own, or the nominal one given for REF0 and REF1 (R74, R75). -/
def sourceFrequency (source : RefSource) (nominal : Nat) : Nat :=
  match source with
  | .oscA => Config.oscA
  | .oscB => Config.oscB
  | .ref0 => nominal
  | .ref1 => nominal

/-- An external reference (R82). -/
def RefSource.isExternal : RefSource → Bool
  | .ref0 => true
  | .ref1 => true
  | _ => false

/-- SET_GENERATOR: the checks of R125 in their order, then the configuration of R75. -/
def State.setGenerator (s : State) (p : GeneratorParams) : State :=
  match generatorOf p.generator with
  | none => s.refuse .badParam
  | some g =>
    if (s.generator g).state != .off then s.refuse .badState
    else
      match sourceOf p.source with
      | none => s.refuse .badParam
      | some source =>
        let nominal := p.frequency.toNat
        let frequency := sourceFrequency source nominal
        let divider := p.divider.toNat
        match firstFailure
          [(p.divider != 0, .badParam),
           (!source.isExternal || (1000 ≤ nominal && nominal ≤ 50000000), .badParam),
           (p.lossWindow != 0, .badParam),
           (1000 * divider ≤ frequency && frequency ≤ 384000 * divider, .badParam)] with
        | some status => s.refuse status
        | none =>
          (s.putGenerator g { s.generator g with
            source := source
            frequency := frequency
            divider := divider
            lossWindow := p.lossWindow.toNat }).answerOk []

def execSetGenerator (entry : TransferId) (seq : BitVec 16) (params : GeneratorParams) (s : State) :
    Host.Outcome State Fault Refusal :=
  .next (s.takeCommand entry (.setGenerator entry seq params) seq (fun s => s.setGenerator params))

/-- A generator as ENABLE_GENERATOR leaves it (R77, R82). -/
def Generator.enabled (x : Generator) : Generator :=
  { x with
    state := .running
    position := 0
    edges := 0
    monitor := if x.source.isExternal then some x.lossWindow else none }

/-- ENABLE_GENERATOR (R126, R77, R86). -/
def State.enableGenerator (s : State) (number : BitVec 8) : State :=
  match generatorOf number with
  | none => s.refuse .badParam
  | some g =>
    if (s.generator g).state != .off then s.refuse .badState
    else if s.lostWaiting g then s.refuse .busy
    else (s.putGenerator g (s.generator g).enabled).answerOk []

def execEnableGenerator (entry : TransferId) (seq : BitVec 16) (generator : BitVec 8) (s : State) :
    Host.Outcome State Fault Refusal :=
  .next (s.takeCommand entry (.enableGenerator entry seq generator) seq (fun s => s.enableGenerator generator))

/-- The lanes of a generator's bound streams go quiet (R72). -/
def State.quietBound (s : State) (g : GenNo) : State :=
  (s.boundStreams g).foldl State.quietLane s

/-- The stream keeps its generator from being disabled (R78). -/
def Stream.holdsGenerator (c : Stream) : Bool :=
  c.state == .armed || c.isRunning || c.state == .stopping

/-- DISABLE_GENERATOR (R127, R78). -/
def State.disableGenerator (s : State) (number : BitVec 8) : State :=
  match generatorOf number with
  | none => s.refuse .badParam
  | some g =>
    let x := s.generator g
    if x.state == .off then s.refuse .badState
    else if (s.boundStreams g).any (fun n => (s.stream n).holdsGenerator) then s.refuse .busy
    else
      ((s.quietBound g).putGenerator g { x with state := .off, monitor := none }).answerOk
        (leBytes 8 x.position.toNat)

def execDisableGenerator (entry : TransferId) (seq : BitVec 16) (generator : BitVec 8) (s : State) :
    Host.Outcome State Fault Refusal :=
  .next (s.takeCommand entry (.disableGenerator entry seq generator) seq (fun s => s.disableGenerator generator))

end Sys2Proof.Machine
end

