-- ==== Sys2Proof/Machine/StartStop.lean ====
section
/-! DEFINITION. START and STOP (sections 6.5 and 6.6). -/

namespace Sys2Proof.Machine

/-- The bit clock of a stream at the generator's nominal frame rate is at most 50 MHz; the rate is frequency
divided by divider, compared exactly (R23, R74, log 8). -/
def bitClockWithin (x : Generator) (c : Stream) : Bool :=
  x.frequency * c.slots * c.width ≤ Config.bitClockLimit * x.divider

/-- The condition of a record that creates an entry: `none` for a code or a line that the checks refuse. -/
def entryCondition (p : ScheduleParams) (allowNext : Bool) : Option Condition :=
  if p.condition == condNext && allowNext then some .next
  else if p.condition == condAt then some .atPosition
  else if p.condition == condTrigger then (lineOf p.line).map .trigger
  else none

/-- The line of a TRIGGER condition has an edge selection other than NONE (R89). -/
def State.lineSelected (s : State) (condition : Condition) : Bool :=
  match condition with
  | .trigger l => (s.line l).selection != .noEdge
  | _ => true

/-- Every named stream is bound to the generator. -/
def State.allBound (s : State) (set : StreamSet) (g : GenNo) : Bool :=
  (streamsOf set).all (fun n => (s.stream n).generator == g)

/-- The Schedule Table has a free place (R96). -/
def State.tableFree (s : State) : Bool := s.schedule.entries.length < Config.schedulePlaces

/-- The named streams take the id of their new entry; those of a START entry become ARMED (R9, R96). -/
def State.nameStreams (s : State) (e : ScheduleEntry) : State :=
  (streamsOf e.streams).foldl (fun s n =>
    s.modifyStream n (fun c =>
      { c with
        scheduleEntry := some e.id
        state := if e.kind == .start then .armed else c.state })) s

/-- The entry is created, its streams are named, and the command is answered PENDING (R96, R131, R135). -/
def State.createEntry (s : State) (kind : EntryKind) (g : GenNo) (condition : Condition) (p : ScheduleParams) : State :=
  let e := s.newEntry kind g condition p.target p.streams
  ((s.addEntry e).nameStreams e).produceCmdDone .pending (entryResult e.id e.late e.firePosition) (.entry e.id)

/-- START: the checks of R130 in their order, then the creation of R131. -/
def State.start (s : State) (p : ScheduleParams) : State :=
  match streamsOf p.streams, entryCondition p true with
  | n :: _, some condition =>
    let g := (s.stream n).generator
    match firstFailure
      [((streamsOf p.streams).all (fun n => (s.stream n).state == .idle), .badState),
       (s.allBound p.streams g, .badParam),
       ((s.generator g).state == .running, .genOff),
       (s.lineSelected condition, .badState),
       ((streamsOf p.streams).all (fun n => bitClockWithin (s.generator g) (s.stream n)), .badParam),
       (s.tableFree, .noEntry)] with
    | some status => s.refuse status
    | none => s.createEntry .start g condition p
  | _, _ => s.refuse .badParam

/-- START with condition NEXT (R130, R131, R97); a record whose condition code START refuses comes here. -/
def execStartNext (entry : TransferId) (seq : BitVec 16) (params : ScheduleParams) (s : State) :
    Host.Outcome State Fault Refusal :=
  .next (s.takeCommand entry (.startNext entry seq params) seq (fun s => s.start params))

/-- START with condition AT (R130, R131, R97). -/
def execStartAt (entry : TransferId) (seq : BitVec 16) (params : ScheduleParams) (s : State) :
    Host.Outcome State Fault Refusal :=
  .next (s.takeCommand entry (.startAt entry seq params) seq (fun s => s.start params))

/-- START with condition TRIGGER (R130, R131, R98). -/
def execStartTrigger (entry : TransferId) (seq : BitVec 16) (params : ScheduleParams) (s : State) :
    Host.Outcome State Fault Refusal :=
  .next (s.takeCommand entry (.startTrigger entry seq params) seq (fun s => s.start params))

/-- STOP with condition AT or TRIGGER: checks 4 to 9 of R132, then the creation of R135. -/
def State.stopEntry (s : State) (p : ScheduleParams) (condition : Condition) : State :=
  match streamsOf p.streams with
  | [] => s.refuse .badParam
  | n :: rest =>
    let g := (s.stream n).generator
    match firstFailure
      [((n :: rest).all (fun n => (s.stream n).isRunning), .badState),
       ((n :: rest).all (fun n =>
          (s.stream n).state != .draining && (s.stream n).scheduleEntry.isNone && !(s.stream n).inTail), .busy),
       (s.allBound p.streams g, .badParam),
       ((s.generator g).state == .running, .genOff),
       (s.lineSelected condition, .badState),
       (s.tableFree, .noEntry)] with
    | some status => s.refuse status
    | none => s.createEntry .stop g condition p

/-- The states a STOP with condition NOW stops (R132). -/
def Stream.isStoppable (c : Stream) : Bool :=
  c.state == .armed || c.isRunning || c.state == .faulted

/-- STOP NOW takes one named stream out of the entry that names it; the Schedule Unit takes the removal claim at
the execution itself, and an entry it leaves cleared joins the entry wait set (R133, R104). -/
def State.stopRemoval (s : State) (n : StreamNo) : State :=
  match (s.stream n).scheduleEntry with
  | none => s
  | some id =>
    let live := s.schedule.entries.any (fun e => e.id == id && (e.state == .waiting || e.state == .firing)
      && e.answered == 0 && (e.streams &&& ~~~streamBit n) == 0 && e.streams.getLsbD n.val)
    let s := s.modifyStream n (fun c => { c with scheduleEntry := none })
    let s := if live then { s with command := { s.command with entryWait := s.command.entryWait ++ [id] } } else s
    s.removeFromEntry id n .streamsLeft

/-- STOP NOW stops one named stream according to its state (R133, R11, R16, R20). -/
def State.stopStream (s : State) (n : StreamNo) : State :=
  if (s.stream n).state == .armed then s.modifyStream n (fun c => { c with state := .idle, drainAnswered := false })
  else (s.enterStopping n .idle (some .command) none).settle n

/-- STOP NOW: check 4 of R132, then R133 and R134. -/
def State.stopNow (s : State) (p : ScheduleParams) : State :=
  let named := streamsOf p.streams
  if named.isEmpty then s.refuse .badParam
  else if !named.all (fun n => (s.stream n).isStoppable) then s.refuse .badState
  else
    let disarmed := setOf (named.filter (fun n => (s.stream n).state == .armed))
    let stopped := setOf (named.filter (fun n => (s.stream n).state != .armed))
    let result := leBytes 1 stopped.toNat ++ leBytes 1 disarmed.toNat
    let (order, s) := s.takeOrder
    let named := order.filter (fun n => p.streams.getLsbD n.val)
    let s := s.awaitCompletion result stopped []
    (named.foldl State.stopStream (named.foldl State.stopRemoval s)).examineCommand

/-- STOP DRAIN: checks 3 to 5 of R132, then R136, R14 and R137. -/
def State.stopDrain (s : State) (p : ScheduleParams) : State :=
  match streamsOf p.streams with
  | [n] =>
    let c := s.stream n
    match firstFailure
      [(c.isRunning, .badState),
       (c.state != .draining && c.scheduleEntry.isNone && !c.inTail, .busy)] with
    | some status => s.refuse status
    | none =>
      let s := (s.putStream n { c with
        state := .draining
        drainLimit := some c.producer
        drainAnswered := false }).settle n
      s.produceCmdDone .pending (leBytes 2 c.producer ++ leBytes 2 c.consumer) (.drain n)
  | _ => s.refuse .badParam

/-- STOP: the checks common to every condition, then those of its condition (R132). -/
def State.stop (s : State) (p : ScheduleParams) : State :=
  if p.condition == condNow then s.stopNow p
  else if p.condition == condDrain then s.stopDrain p
  else
    match entryCondition p false with
    | some condition => s.stopEntry p condition
    | none => s.refuse .badParam

/-- STOP with condition NOW (R132 to R134); a record whose condition code STOP refuses comes here. -/
def execStopNow (entry : TransferId) (seq : BitVec 16) (params : ScheduleParams) (s : State) :
    Host.Outcome State Fault Refusal :=
  .next (s.takeCommand entry (.stopNow entry seq params) seq (fun s => s.stop params))

/-- STOP with condition AT (R132, R135). -/
def execStopAt (entry : TransferId) (seq : BitVec 16) (params : ScheduleParams) (s : State) :
    Host.Outcome State Fault Refusal :=
  .next (s.takeCommand entry (.stopAt entry seq params) seq (fun s => s.stop params))

/-- STOP with condition TRIGGER (R132, R135). -/
def execStopTrigger (entry : TransferId) (seq : BitVec 16) (params : ScheduleParams) (s : State) :
    Host.Outcome State Fault Refusal :=
  .next (s.takeCommand entry (.stopTrigger entry seq params) seq (fun s => s.stop params))

/-- STOP with condition DRAIN (R132, R136, R137). -/
def execStopDrain (entry : TransferId) (seq : BitVec 16) (params : ScheduleParams) (s : State) :
    Host.Outcome State Fault Refusal :=
  .next (s.takeCommand entry (.stopDrain entry seq params) seq (fun s => s.stop params))

end Sys2Proof.Machine
end

