-- ==== Sys2Proof/Machine/Lanes.lean ====
section
/-! DEFINITION. The sample ports (section 3.8): when a lane is active, what a tick puts on it, and the serial
signals of a frame period. -/

namespace Sys2Proof.Machine

/-- The three conditions of R23 on which the port of a stream drives its lane. -/
def State.laneMayDrive (s : State) (n : StreamNo) : Bool :=
  let c := s.stream n
  let x := s.generator c.generator
  c.state != .closed && x.state == .running && bitClockWithin x c

/-- A tick opens a frame period on the lane of a stream (R70, R72): the lane is active and shifts `frame`. -/
def State.openPeriod (s : State) (n : StreamNo) (frame : List Byte) : State :=
  s.putPort n (if s.laneMayDrive n then ⟨true, frame⟩ else quietPort)

/-- The frame delivered at a tick on a capture lane: the bits shifted in during the period that the tick closes,
and a zero frame when the port did not drive the bit clock through it (R70). -/
def State.delivered (s : State) (n : StreamNo) (bits : List Bool) : List Byte :=
  let c := s.stream n
  if (s.port n).active then frameOfBits c.width c.slots bits else c.zeroFrame

/-- The bit clock of an active lane (R23): it rests at `rest` between active edges. Each bit period has its leading
edge, away from that level, and its trailing edge, back to it. -/
structure BitClock where
  rest : Level
  leading : Edge
  trailing : Edge
deriving DecidableEq, Repr

/-- The signals of one bit period: frame sync and output data. -/
structure LaneBit where
  sync : Level
  data : Level
deriving DecidableEq, Repr

/-- What a lane shows: at rest (R23), or the bit periods of a frame with the bit clock and the edges at which data
changes and is sampled. -/
inductive LaneSignal where
  | quiet (clock sync data : Level)
  | framePeriod (clock : BitClock) (changeEdge sampleEdge : Edge) (bits : List LaneBit)
deriving DecidableEq, Repr

def levelOfBool (b : Bool) : Level := if b then .high else .low

/-- The edge on which capture data is sampled: the other one than the data-change edge (R23). -/
def otherEdge : Edge → Edge
  | .rising => .falling
  | .falling => .rising

/-- The edge that takes a signal away from a level. -/
def edgeFrom : Level → Edge
  | .low => .rising
  | .high => .falling

/-- The bit clock of a lane with a bit-clock idle level (R23). -/
def bitClock (idle : Level) : BitClock where
  rest := idle
  leading := edgeFrom idle
  trailing := otherEdge (edgeFrom idle)

/-- Frame sync in bit period `i` of a frame: LEVEL holds it high for slot 0, PULSE for the last bit period, which
ends at the next tick (R69). -/
def syncAt (form : SyncForm) (slots width i : Nat) : Level :=
  match form with
  | .level => levelOfBool (decide (i < width))
  | .pulse => levelOfBool (decide (i + 1 = slots * width))

/-- The serial signals of a port during the frame period under way (R23, R69, R71, R72). R71 gives an active capture
lane clocks and frame sync; that its output data is low in every bit period is the model's (DESIGN CHOICE, log 33). -/
def State.laneSignal (s : State) (n : StreamNo) : LaneSignal :=
  let c := s.stream n
  let p := s.port n
  if p.active then
    let bits :=
      match c.direction with
      | .output => bitsOfFrame c.width c.slots p.frame
      | .capture => List.replicate (c.slots * c.width) false
    .framePeriod (bitClock c.idleLevel) c.changeEdge (otherEdge c.changeEdge)
      (bits.mapIdx (fun i b => ⟨syncAt c.syncForm c.slots c.width i, levelOfBool b⟩))
  else .quiet c.idleLevel .low .low

end Sys2Proof.Machine
end

