-- ==== Sys2Proof/Machine/Ticks.lean ====
section
/-! DEFINITION. The events of the Timebase Unit and of the timers (chapter 4, R163): ticks, reference edges and
losses, trigger edges, removal claims, and what every stream does at a tick (sections 3.3 to 3.7, 5.3). -/

namespace Sys2Proof.Machine

/-! ### The tick of one stream -/

/-- The frame an OUTPUT lane carries on a starved tick (R22, R58, R64). -/
def Stream.starveFrame (c : Stream) : List Byte :=
  if c.policy == .repeatFrame then c.lastFrame else c.zeroFrame

/-- A tick with no frame is counted (R4, R12). -/
def Stream.countStarved (c : Stream) : Stream :=
  { c with
    starvedFrames := raise .starvedFrames c.starvedFrames
    starveRun := raise .starveRun c.starveRun }

/-- The tick that moves a frame ends a starve run: STARVE_END is produced and STARVED returns to RUNNING
(R12, R57, R63). -/
def State.endStarveRun (s : State) (n : StreamNo) (t : Position) : State :=
  let c := s.stream n
  let s := if c.starveRun != 0 then s.offerStarveEnd n t c.starveRun else s
  s.modifyStream n (fun c =>
    { c with
      starveRun := 0
      state := if c.state == .starved then .running else c.state })

/-- A starved tick, OUTPUT or CAPTURE (R58, R60): counted; HALT faults the stream, and otherwise the first of a
starve run produces STARVE_BEGIN. -/
def State.starvedTick (s : State) (n : StreamNo) (t : Position) : State :=
  let first := (s.stream n).starveRun == 0
  let s := s.modifyStream n Stream.countStarved
  if (s.stream n).policy == .halt then s.fault n .underrun t
  else
    let s := if first then s.offerStarveBegin n t else s
    s.modifyStream n (fun c => { c with state := if c.state == .running then .starved else c.state })

/-- A tick in the tail of an ended run: counted as starved, and the waiting STOP_DONE's final position brought up
to date (R64, R145). -/
def Stream.tailTick (c : Stream) : Stream :=
  let c := c.countStarved
  { c with pendingReport := c.pendingReport.map (fun r =>
      match r.event with
      | .streamStopDone n g reason _ => { r with event := .streamStopDone n g reason c.finalPosition }
      | _ => r) }

/-- The MARK notice of a record whose first position is set at this tick (R38). -/
def State.markFirst (s : State) (n : StreamNo) (r : StagedRecord) (isFirst : Bool) (t : Position) : State :=
  if isFirst && r.record.markFlag then s.offerMark n r.record.tag t else s

/-- A record after one of its frames has passed the lane (R36, R39). -/
def StagedRecord.passFrame (r : StagedRecord) (t : Position) : StagedRecord :=
  { r with
    moved := r.moved + 1
    firstPosition := if r.moved == 0 then some t else r.firstPosition
    finished := r.finished || r.moved + 1 == r.record.totalFrames }

/-- The ready head frame passes the lane (R57). -/
def State.passFrame (s : State) (n : StreamNo) (t : Position) (p : Place) (rest : List Place) : State :=
  let c := s.stream n
  let s := s.openPeriod n p.data
  let s := s.modifyStream n (fun c =>
    { c with
      fifo := rest
      dataFrames := if p.gap then c.dataFrames else raise .dataFrames c.dataFrames
      gapFrames := if p.gap then raise .gapFrames c.gapFrames else c.gapFrames
      lastFrame := p.data }.modifyRecord p.ring (fun r => r.passFrame t))
  let s :=
    match c.recordAt p.ring with
    | some r => s.markFirst n r (r.moved == 0) t
    | none => s
  s.endStarveRun n t

/-- The tick of a run on an OUTPUT stream (R57, R58). -/
def State.outputTick (s : State) (n : StreamNo) (t : Position) : State :=
  let c := s.stream n
  match c.fifo with
  | p :: rest =>
    if p.isWhole then s.passFrame n t p rest else (s.openPeriod n c.starveFrame).starvedTick n t
  | [] => (s.openPeriod n c.starveFrame).starvedTick n t

/-- A capture record after a lane frame has been assigned to it; a GAP frame is moved at once (R37, R39, R59). -/
def StagedRecord.assignFrame (r : StagedRecord) (t : Position) : StagedRecord :=
  let gap := r.record.isGap
  { r with
    progress := r.progress + 1
    moved := if gap then r.moved + 1 else r.moved
    firstPosition := if r.progress == 0 then some t else r.firstPosition
    finished := r.finished || (gap && r.progress + 1 == r.record.frameCount.toNat) }

/-- The lane frame is assigned to the record (R59). -/
def State.assignFrame (s : State) (n : StreamNo) (t : Position) (r : StagedRecord) (frame : List Byte) : State :=
  let gap := r.record.isGap
  let s := s.modifyStream n (fun c =>
    { c with
      fifo := if gap then c.fifo else c.fifo ++ [assignedPlace r.ringIndex r.progress frame]
      dataFrames := if gap then c.dataFrames else raise .dataFrames c.dataFrames
      gapFrames := if gap then raise .gapFrames c.gapFrames else c.gapFrames }.modifyRecord r.ringIndex
        (fun r => r.assignFrame t))
  (s.markFirst n r (r.progress == 0) t).endStarveRun n t

/-- The tick of a run on a CAPTURE stream (R59, R60). -/
def State.captureTick (s : State) (n : StreamNo) (t : Position) (frame : List Byte) : State :=
  let c := s.stream n
  match c.current with
  | none => s.starvedTick n t
  | some r =>
    if r.record.isGap || 0 < c.freePlaces then s.assignFrame n t r frame else s.starvedTick n t

/-- A tick of the run under way: a frame moves or a starved frame counts (R12). -/
def State.runTick (s : State) (n : StreamNo) (t : Position) (bits : List Bool) : State :=
  let c := s.stream n
  match c.direction with
  | .output => s.outputTick n t
  | .capture =>
    let frame := s.delivered n bits
    (s.openPeriod n []).captureTick n t frame

/-- The idle content of a lane: a zero frame on output, clocks and frame sync on capture (R71). -/
def State.idlePeriod (s : State) (n : StreamNo) : State :=
  let c := s.stream n
  s.openPeriod n (match c.direction with
    | .output => c.zeroFrame
    | .capture => [])

/-- A START entry fires for the stream: the run begins at tick `t`, which it uses (R10, R4, R6, R100). -/
def Stream.beginRun (c : Stream) (t : Position) : Stream :=
  { c with
    state := .running
    scheduleEntry := none
    startPosition := some t
    dataFrames := 0
    gapFrames := 0
    starvedFrames := 0
    starveRun := 0
    lastFrame := c.zeroFrame }

/-- The entry that names the stream fires at tick `t` (R99). -/
def State.firingEntry (s : State) (n : StreamNo) (t : Position) : Option ScheduleEntry :=
  match (s.stream n).scheduleEntry with
  | none => none
  | some id => (s.entry? id).filter (fun e => e.firePosition == some t)

/-- What a stream does at tick `t` of its generator, by its state (R7, R12, R64, R100, R101). -/
def State.tickStream (bits : List Bool) (t : Position) (s : State) (n : StreamNo) : State :=
  let c := s.stream n
  match c.state with
  | .closed => s
  | .armed =>
    match s.firingEntry n t with
    | some e =>
      if e.kind == .start then
        ((((s.modifyStream n (fun c => c.beginRun t)).runTick n t bits).settle n).answerEntry e.id n).examineCommand
      else s.idlePeriod n
    | none => s.idlePeriod n
  | .running | .starved | .draining =>
    match (s.firingEntry n t).filter (fun e => e.kind == .stop && c.state != .draining) with
    | some e => ((s.idlePeriod n).enterStopping n .idle (some .entry) (some e.id)).settleStream n
    | none =>
      if c.inTail then
        (s.openPeriod n (match c.direction with
          | .output => c.starveFrame
          | .capture => [])).modifyStream n Stream.tailTick
      else (s.runTick n t bits).settleStream n
  | _ => s.idlePeriod n

/-! ### The Timebase Unit -/

/-- The Stream Unit takes a generator's reference-loss claim: the armed and running streams bound to it fault
with REFERENCE_LOST (R84). -/
def State.loseStreams (s : State) (g : GenNo) (position : Position) : State :=
  let (order, s) := s.takeOrder
  (order.filter (fun n => (s.stream n).generator == g)).foldl (fun s n =>
    let c := s.stream n
    if c.state == .armed || c.isRunning then (s.fault n .referenceLost position).examineCommand else s) s

/-- The Stream Unit takes the oldest loss claim of the generator that waits for it (R83, R84). -/
def State.takeStreamLoss (s : State) (g : GenNo) : State :=
  match s.streamLosses.find? (fun l => l.generator == g) with
  | none => s
  | some l => { s with streamLosses := s.streamLosses.erase l }.loseStreams g l.position

/-- The Schedule Unit takes the oldest loss claim of the generator that waits for it (R83, R85). -/
def State.takeScheduleLoss (s : State) (g : GenNo) : State :=
  match s.schedule.losses.find? (fun l => l.generator == g) with
  | none => s
  | some l =>
    ({ s with schedule := { s.schedule with losses := s.schedule.losses.erase l } }.loseEntries g).examineCommand

/-- Both units take the claims that wait ahead of a tick of the same generator (R83). -/
def State.takeLosses (s : State) (g : GenNo) : State :=
  let s := (s.streamLosses.filter (fun l => l.generator == g)).foldl (fun s _ => s.takeStreamLoss g) s
  (s.schedule.losses.filter (fun l => l.generator == g)).foldl (fun s _ => s.takeScheduleLoss g) s

/-- The next reference edge is the divider-th of a RUNNING generator since its last tick or its enable (R79, R77). -/
def Generator.completesTick (x : Generator) : Bool := x.state == .running && x.edges + 1 == x.divider

/-- The generator counts its divider-th edge and its position rises; an armed monitor restarts (R79, R80, R82). -/
def Generator.tick (x : Generator) : Generator :=
  { x with
    position := nextPosition x.position
    edges := 0
    monitor := x.monitor.map (fun _ => x.lossWindow) }

/-- A tick of a generator (R79): the edge that completes the count of divider edges since the last tick, or since the
enable. The entries that fire, then every bound stream, take it. A generator in OFF or LOST, and an engine that is not
ACTIVE, produces none, and at any other count the edge is a REFERENCE_EDGE, so no TICK arises (logs 1 and 9). -/
def execTick (g : GenNo) (lanes : List (List Bool)) (s : State) : Host.Outcome State Fault Refusal :=
  .next (
    if s.isActive && (s.generator g).completesTick then
      let s := s.takeLosses g
      let x := (s.generator g).tick
      let s := s.putGenerator g x
      let s := { s with schedule := { s.schedule with
        entries := fireEntries g x.position [] s.schedule.entries } }
      let (order, s) := s.takeOrder
      ((order.filter (fun n => (s.stream n).generator == g)).foldl
        (fun s n => s.tickStream (lanes.getD n.val []) x.position n) s).finish
    else s)

/-- A reference edge that completes no tick (R82, R88): it is counted and restarts an armed monitor. The edge that
would complete the count is a TICK, so it does not arise here (log 10). -/
def execReferenceEdge (g : GenNo) (s : State) : Host.Outcome State Fault Refusal :=
  .next (
    let x := s.generator g
    if s.isActive && x.state == .running && x.edges + 1 < x.divider then
      s.putGenerator g { x with edges := x.edges + 1, monitor := x.monitor.map (fun _ => x.lossWindow) }
    else s)

/-- The reference monitor's timer expires (R83): the generator is LOST, both units are handed the claim, and
REFERENCE_LOST is produced (R86). Without an armed monitor, or while the engine is not ACTIVE, nothing expires. -/
def execReferenceMonitorExpiry (g : GenNo) (s : State) : Host.Outcome State Fault Refusal :=
  .next (
    let x := s.generator g
    if s.isActive && x.state == .running && x.monitor.isSome then
      let claim : LossClaim := ⟨g, x.position⟩
      let s := (s.quietBound g).putGenerator g { x with state := .lost, monitor := none }
      let s := { s with
        streamLosses := s.streamLosses ++ [claim]
        schedule := { s.schedule with losses := s.schedule.losses ++ [claim] }
        timebase := { s.timebase with lostReports := s.timebase.lostReports ++ [claim] } }
      s.offerLost.finish
    else s)

/-- The Stream Unit takes a reference-loss claim that waits for it (R84). -/
def execStreamReferenceLoss (g : GenNo) (s : State) : Host.Outcome State Fault Refusal :=
  .next (if s.isActive then (s.takeStreamLoss g).finish else s)

/-- The Schedule Unit takes a reference-loss claim that waits for it (R85, R107). -/
def execScheduleReferenceLoss (g : GenNo) (s : State) : Host.Outcome State Fault Refusal :=
  .next (if s.isActive then (s.takeScheduleLoss g).finish else s)

/-- The Schedule Unit takes a removal claim of a stream that waits for it (R104). Where several of one stream wait, that
it is the oldest is the model's (DESIGN CHOICE, log 35): no rule orders them. -/
def execRemovalClaim (n : StreamNo) (s : State) : Host.Outcome State Fault Refusal :=
  .next (
    match s.schedule.removals.find? (fun c => c.stream == n) with
    | none => s
    | some c =>
      if s.isActive then
        ((({ s with schedule := { s.schedule with removals := s.schedule.removals.erase c } }).removeFromEntry
          c.entry n c.reason).examineCommand).finish
      else s)

/-- The line's edge selection includes the transition (R90). -/
def EdgeSelection.selects (sel : EdgeSelection) (edge : Edge) : Bool :=
  match sel, edge with
  | .both, _ => true
  | .rising, .rising => true
  | .falling, .falling => true
  | _, _ => false

/-- A transition of a trigger input (R90): a selected edge makes its entries due and, with reporting on, produces
a TRIGGER notice; any other transition is not taken. -/
def execTriggerEdge (l : LineNo) (edge : Edge) (s : State) : Host.Outcome State Fault Refusal :=
  .next (
    if s.isActive && (s.line l).selection.selects edge then
      let s := s.makeDue l
      (if (s.line l).report then s.offerTrigger l edge else s).finish
    else s)

/-- The Event Unit signals (R162, R163). -/
def EventUnit.signal (e : EventUnit) : EventUnit :=
  { e with pending := true, count := 0, timerRunning := false }

/-- The holdoff timer expires, and the Event Unit signals (R163). -/
def execHoldoffTimerExpiry (s : State) : Host.Outcome State Fault Refusal :=
  .next (if s.isActive && s.events.timerRunning then { s with events := s.events.signal } else s)

end Sys2Proof.Machine
end

