-- ==== Sys2Proof/Machine/Completions.lean ====
section
/-! DEFINITION. The completions of the engine's transfers (section 8.5): the Root Block read, data reads and
writes, record reads, event writes, and their failures. -/

namespace Sys2Proof.Machine

/-- The stream a transfer belongs to. -/
def Requester.stream? : Requester → Option StreamNo
  | .streamData n => some n
  | .streamRecord n => some n
  | _ => none

/-- Act on the stream a completed transfer belongs to. -/
def State.onStream (t : Transfer) (f : StreamNo → State → State) (s : State) : State :=
  match t.requester.stream? with
  | some n => f n s
  | none => s

/-- The OK completion of a stream's transfer: the stream takes it and is examined. -/
def State.completeStream (s : State) (entry : TransferId) (isFor : Transfer → Bool)
    (effect : Transfer → Stream → Stream) : State :=
  s.completeOk entry isFor (fun t s =>
    s.onStream t (fun n s => (s.modifyStream n (effect t)).settleStream n))

/-- A stream in a taking state faults on a failed access of its own; in STOPPING and FAULTED it does not (R17,
R19, R20). -/
def State.accessError (s : State) (n : StreamNo) (cause : FaultCause) : State :=
  let c := s.stream n
  if c.isTaking then s.enterFaulted n cause (s.generator c.generator).position else s

/-- The ERROR completion of a stream's transfer: Fault Address, the stream's own effect and the fault (R19, R180), and
the stream is examined; ahead of the quiesce claim the fault is taken and nothing can be reported (R181, R190, log 32). -/
def State.failStream (s : State) (entry : TransferId) (isFor : Transfer → Bool) (cause : FaultCause)
    (effect : Transfer → Stream → Stream) : State :=
  let fails (t : Transfer) (n : StreamNo) (s : State) : State := (s.modifyStream n (effect t)).accessError n cause
  s.complete entry isFor
    (fun t s => (s.recordFault t).onStream t (fails t))
    (fun t s => (s.recordFault t).onStream t (fun n s => (fails t n s).settleStream n))

/-! ### The Root Block read (R186, R187) -/

/-- The candidate is validated: the engine enters ACTIVE, or HALTED with cause ROOT_INVALID (R187, R189). -/
def State.loadRootBlock (s : State) (b : RootBlock) : State :=
  if s.engine.state != .loading then s
  else if b.isValid then s.enterActive b
  else s.enterHalted .rootInvalid

def execRootBlockLoad (entry : TransferId) (block : RootBlock) (s : State) : Host.Outcome State Fault Refusal :=
  .next (s.completeOk entry (Transfer.isOf .rootBlock) (fun _ s => s.loadRootBlock block))

/-- The Root Block read fails (R186, R189). -/
def execRootAccess (entry : TransferId) (s : State) : Host.Outcome State Fault Refusal :=
  .next (s.completeFatal entry .rootBlock .rootAccess)

/-! ### Command record reads (R119) -/

/-- A command record read fails: the command is not taken and the engine halts (R119). -/
def execControlRingAccess (entry : TransferId) (s : State) : Host.Outcome State Fault Refusal :=
  .next (s.completeFatal entry .commandRecord .controlRingAccess)

/-! ### Data reads (R55, R56) -/

/-- The bytes of a data read as the transfer asked for them; a byte the operand does not give reads 0 (log 4). -/
def readData (t : Transfer) (data : List Byte) : List Byte :=
  (data ++ List.replicate t.length 0).take t.length

/-- A data read completes OK: its bytes fill the places it reserved, or are dropped (R55). -/
def Stream.completeRead (c : Stream) (t : Transfer) (data : List Byte) : Stream :=
  match t.item with
  | .frames ring pass offset =>
    let c := c.modifyRecord ring (fun r => { r with outstanding := r.outstanding - 1 })
    if t.discard then c
    else { c with fifo := c.fifo.map (fillPlace c.frameSize ring pass offset (readData t data)) }
  | _ => c

def execDataReadComplete (entry : TransferId) (data : List Byte) (s : State) : Host.Outcome State Fault Refusal :=
  .next (s.completeStream entry (Transfer.isData false) (fun t c => c.completeRead t data))

/-- The record that a failed data read served (R56). -/
def Stream.failRead (c : Stream) (t : Transfer) : Stream :=
  match t.item with
  | .frames ring _ _ => c.modifyRecord ring (fun r => { r with outstanding := r.outstanding - 1, failed := true })
  | _ => c

/-- A data read completes with ERROR (R56, R180). -/
def execDataReadError (entry : TransferId) (s : State) : Host.Outcome State Fault Refusal :=
  .next (s.failStream entry (Transfer.isData false) .dataAccess (fun t c => c.failRead t))

/-! ### Data writes (R62) -/

/-- A data write completes, OK or with ERROR. -/
def Stream.finishWrite (c : Stream) (t : Transfer) (ok : Bool) : Stream :=
  match t.item with
  | .frames ring _ offset => c.completeWrite ring offset t.length ok
  | _ => c

/-- A data write completes OK (R62). -/
def execDataWriteComplete (entry : TransferId) (s : State) : Host.Outcome State Fault Refusal :=
  .next (s.completeStream entry (Transfer.isData true) (fun t c => c.finishWrite t true))

/-- A data write completes with ERROR (R62, R180). -/
def execDataWriteError (entry : TransferId) (s : State) : Host.Outcome State Fault Refusal :=
  .next (s.failStream entry (Transfer.isData true) .dataAccess (fun t c => c.finishWrite t false))

/-! ### Record reads (R31, R33) -/

/-- A record read completes OK: the record is taken, or not taken in STOPPING, in FAULTED or at the drain
limit (R31). -/
def Stream.recordArrives (c : Stream) (r : StreamRecord) : Stream :=
  if c.isTaking && !(c.state == .draining && c.drainLimit == some c.consumer) then c.takeRecord r else c

def execRecordReadComplete (entry : TransferId) (record : StreamRecord) (s : State) :
    Host.Outcome State Fault Refusal :=
  .next (s.completeStream entry Transfer.isRecordRead (fun _ c => c.recordArrives record))

/-- A record read completes with ERROR: nothing is staged, and a stream in a taking state faults (R33, R180). -/
def execRecordReadError (entry : TransferId) (s : State) : Host.Outcome State Fault Refusal :=
  .next (s.failStream entry Transfer.isRecordRead .ringAccess (fun _ c => c))

/-! ### Event writes (R156, R157) -/

/-- The event counts toward the moderation threshold: every one but a BUFFER_DONE with QUIET (R161). -/
def Event.isCounted : Event → Bool
  | .bufferDone _ _ _ _ _ _ _ quiet => !quiet
  | _ => true

/-- The moderation count after `k` counted events are posted, the signal and the holdoff timer (R161 to R163). -/
def EventUnit.moderate (e : EventUnit) (k : Nat) : EventUnit :=
  if k == 0 then e
  else if e.threshold ≤ e.count + k then e.signal
  else
    { e with
      count := e.count + k
      timerRunning := e.timerRunning || (e.count == 0 && e.holdoff != 0) }

/-- The event write completes OK: its events are posted and leave the list (R156). -/
def EventUnit.post (e : EventUnit) (k : Nat) : EventUnit :=
  let left : EventUnit := { e with
    holding := e.holding.drop k
    inFlight := e.inFlight - k
    posted := e.posted + k }
  left.moderate ((e.holding.take k).countP (fun h : HeldEvent => h.event.isCounted))

/-- The number of entries an event write carries. -/
def Transfer.entryCount (t : Transfer) : Nat :=
  match t.item with
  | .entries k => k
  | _ => 0

/-- An event write completes OK; the freed places are granted to the waiting producers (R156, R150). -/
def execEventWriteComplete (entry : TransferId) (s : State) : Host.Outcome State Fault Refusal :=
  .next (s.completeOk entry (Transfer.isOf .eventWrite) (fun t s =>
    grantPlacesFuel Config.holdingPlaces { s with events := s.events.post t.entryCount }))

/-- An event write completes with ERROR: its events are not posted and the engine halts (R157). -/
def execEventRingAccess (entry : TransferId) (s : State) : Host.Outcome State Fault Refusal :=
  .next (s.completeFatal entry .eventWrite .eventRingAccess)

end Sys2Proof.Machine
end

