-- ==== Sys2Proof/Machine/Registers.lean ====
section
/-! DEFINITION. The host's register writes and the RESET pin (chapters 8 and 9). While the pin is asserted the
window discards every write (R193). -/

namespace Sys2Proof.Machine

/-- A write takes effect unless the RESET pin is asserted (R193). -/
def State.unlessPin (s : State) (f : State → State) : State := if s.pin then s else f s

/-- Device Control with ENABLE 1: bring-up in OFF (R185, R186). -/
def execEnable (word : BitVec 32) (s : State) : Host.Outcome State Fault Refusal :=
  .next (s.unlessPin (fun s => s.writeDeviceControl word))

/-- Device Control with ENABLE 0: the engine disable (R185, R191). -/
def execEngineDisable (word : BitVec 32) (s : State) : Host.Outcome State Fault Refusal :=
  .next (s.unlessPin (fun s => s.writeDeviceControl word))

/-- Device Control with RESET 1: a full reset; the other fields are discarded (R185, R193). -/
def execReset (word : BitVec 32) (s : State) : Host.Outcome State Fault Refusal :=
  .next (s.unlessPin (fun s => s.writeDeviceControl word))

/-- Device Control for its INTERRUPT_ENABLE: taken in every engine state (R185, R165). -/
def execInterruptEnable (word : BitVec 32) (s : State) : Host.Outcome State Fault Refusal :=
  .next (s.unlessPin (fun s => s.writeDeviceControl word))

/-- Assertion of the RESET pin: a full reset, held while the pin stays asserted (R193). -/
def execResetPin (s : State) : Host.Outcome State Fault Refusal :=
  .next { s.fullReset with pin := true }

/-- Release of the RESET pin ends the reset it held (R193). -/
def execResetPinRelease (s : State) : Host.Outcome State Fault Refusal :=
  .next { s with pin := false }

/-- A Device Status write with 1 in the NOTIFY_ERROR position (R171, R195). -/
def execNotifyErrorClear (word : BitVec 32) (s : State) : Host.Outcome State Fault Refusal :=
  .next (s.unlessPin (fun s => s.writeDeviceStatus word))

/-- A write to either word of Root Pointer (R194). -/
def execRootPointerWrite (high : Bool) (word : BitVec 32) (s : State) : Host.Outcome State Fault Refusal :=
  .next (s.unlessPin (fun s => s.writeRootPointer high word))

/-- A write that reaches no writable register is discarded (R168). -/
def execRegisterWriteDiscarded (offset width : Nat) (value : BitVec 64) (s : State) :
    Host.Outcome State Fault Refusal :=
  .next (s.writeWindow offset width value)

/-- Ring Notify for ring 0: the Control Ring producer index (R114, R169, R170). -/
def execControlRingNotify (word : BitVec 32) (s : State) : Host.Outcome State Fault Refusal :=
  .next (s.unlessPin (fun s => s.writeRingNotify word))

/-- Ring Notify for a stream ring, and for an id that names no ring, which is refused (R3, R169 to R171). -/
def execStreamRingNotify (word : BitVec 32) (s : State) : Host.Outcome State Fault Refusal :=
  .next (s.unlessPin (fun s => s.writeRingNotify word))

/-- Ring Notify for ring 9: release of Event Ring entries (R159, R164). -/
def execEventRingRelease (word : BitVec 32) (s : State) : Host.Outcome State Fault Refusal :=
  .next (s.unlessPin (fun s => s.writeRingNotify word))

end Sys2Proof.Machine
end

