-- ==== Sys2Proof/Machine/Dispatch.lean ====
section
/-! DEFINITION. The dispatch of the commands: one arm per constructor of Instr. -/

namespace Sys2Proof.Machine

def exec (i : Instr) (s : State) : Host.Outcome State Fault Refusal :=
  match i with
  | .nop entry seq => Sys2Proof.Machine.execNop entry seq s
  | .setGenerator entry seq params => Sys2Proof.Machine.execSetGenerator entry seq params s
  | .enableGenerator entry seq generator => Sys2Proof.Machine.execEnableGenerator entry seq generator s
  | .disableGenerator entry seq generator => Sys2Proof.Machine.execDisableGenerator entry seq generator s
  | .openStream entry seq params => Sys2Proof.Machine.execOpenStream entry seq params s
  | .closeStream entry seq stream => Sys2Proof.Machine.execCloseStream entry seq stream s
  | .startNext entry seq params => Sys2Proof.Machine.execStartNext entry seq params s
  | .startAt entry seq params => Sys2Proof.Machine.execStartAt entry seq params s
  | .startTrigger entry seq params => Sys2Proof.Machine.execStartTrigger entry seq params s
  | .stopNow entry seq params => Sys2Proof.Machine.execStopNow entry seq params s
  | .stopAt entry seq params => Sys2Proof.Machine.execStopAt entry seq params s
  | .stopTrigger entry seq params => Sys2Proof.Machine.execStopTrigger entry seq params s
  | .stopDrain entry seq params => Sys2Proof.Machine.execStopDrain entry seq params s
  | .cancel entry seq target => Sys2Proof.Machine.execCancel entry seq target s
  | .setTrigger entry seq line selection report => Sys2Proof.Machine.execSetTrigger entry seq line selection report s
  | .query entry seq targetKind target page => Sys2Proof.Machine.execQuery entry seq targetKind target page s
  | .unknownCommandKind entry seq kind => Sys2Proof.Machine.execUnknownCommandKind entry seq kind s
  | .controlRingAccess entry => Sys2Proof.Machine.execControlRingAccess entry s
  | .controlRingNotify word => Sys2Proof.Machine.execControlRingNotify word s
  | .streamRingNotify word => Sys2Proof.Machine.execStreamRingNotify word s
  | .eventRingRelease word => Sys2Proof.Machine.execEventRingRelease word s
  | .enable word => Sys2Proof.Machine.execEnable word s
  | .engineDisable word => Sys2Proof.Machine.execEngineDisable word s
  | .reset word => Sys2Proof.Machine.execReset word s
  | .resetPin => Sys2Proof.Machine.execResetPin s
  | .interruptEnable word => Sys2Proof.Machine.execInterruptEnable word s
  | .notifyErrorClear word => Sys2Proof.Machine.execNotifyErrorClear word s
  | .rootPointerWrite high word => Sys2Proof.Machine.execRootPointerWrite high word s
  | .registerWriteDiscarded offset width value => Sys2Proof.Machine.execRegisterWriteDiscarded offset width value s
  | .rootBlockLoad entry block => Sys2Proof.Machine.execRootBlockLoad entry block s
  | .rootAccess entry => Sys2Proof.Machine.execRootAccess entry s
  | .dataReadComplete entry data => Sys2Proof.Machine.execDataReadComplete entry data s
  | .dataReadError entry => Sys2Proof.Machine.execDataReadError entry s
  | .dataWriteComplete entry => Sys2Proof.Machine.execDataWriteComplete entry s
  | .dataWriteError entry => Sys2Proof.Machine.execDataWriteError entry s
  | .recordReadComplete entry record => Sys2Proof.Machine.execRecordReadComplete entry record s
  | .recordReadError entry => Sys2Proof.Machine.execRecordReadError entry s
  | .eventWriteComplete entry => Sys2Proof.Machine.execEventWriteComplete entry s
  | .eventRingAccess entry => Sys2Proof.Machine.execEventRingAccess entry s
  | .tick generator lanes => Sys2Proof.Machine.execTick generator lanes s
  | .referenceMonitorExpiry generator => Sys2Proof.Machine.execReferenceMonitorExpiry generator s
  | .streamReferenceLoss generator => Sys2Proof.Machine.execStreamReferenceLoss generator s
  | .scheduleReferenceLoss generator => Sys2Proof.Machine.execScheduleReferenceLoss generator s
  | .removalClaim stream => Sys2Proof.Machine.execRemovalClaim stream s
  | .triggerEdge line edge => Sys2Proof.Machine.execTriggerEdge line edge s
  | .holdoffTimerExpiry => Sys2Proof.Machine.execHoldoffTimerExpiry s
  | .referenceEdge generator => Sys2Proof.Machine.execReferenceEdge generator s
  | .resetPinRelease => Sys2Proof.Machine.execResetPinRelease s

end Sys2Proof.Machine
end

