-- ==== Sys2Proof/Safety.lean ====
section
/-! DEFINITION. The terms in which claims about the block are stated: what the grants that close a step may
change, when a completion reaches its requester, what an answered command leaves, and the invariants of a run. -/

namespace Sys2Proof.Machine

/-! ### What the grants that close a step may change

A step ends with the requests and grants of section 8.4. They form transfers from the state of their requesters,
and change nothing but what follows. Two states that agree *apart from grants* agree in all the rest. -/

/-- A staged record without the fetch progress (OUTPUT) and the count of its transfers (R36, R53). -/
def StagedRecord.apartFromGrants (d : Direction) (r : StagedRecord) : StagedRecord :=
  match d with
  | .output => { r with pass := 0, progress := 0, outstanding := 0 }
  | .capture => { r with outstanding := 0 }

/-- A FIFO place without the marks of the writes that carry it (R61). -/
def Place.apartFromGrants (p : Place) : Place := { p with issued := 0, writes := 0 }

/-- A stream without its prefetched places, its fetch point and its record request. -/
def Stream.apartFromGrants (c : Stream) : Stream :=
  { c with
    staging := c.staging.map (StagedRecord.apartFromGrants c.direction)
    fifo := match c.direction with
      | .output => []
      | .capture => c.fifo.map Place.apartFromGrants
    fetchSplit := 0
    readPresented := false }

/-- A held event without the mark of the write that carries it (R155). -/
def HeldEvent.apartFromGrants (h : HeldEvent) : HeldEvent := { h with inWrite := false }

/-- READY and FETCHING differ only in a presented read (R117). -/
def Phase.apartFromGrants : Phase → Phase
  | .fetching => .ready
  | p => p

/-- The state without the Outstanding Transfer Table, the arbiter's pointers, the fetch and write-back marks, the
Event Ring's write position and the Command Unit's read. -/
def State.apartFromGrants (s : State) : State :=
  { s with
    streams := s.streams.map Stream.apartFromGrants
    transfers := { s.transfers with
      table := Vector.replicate 8 none
      lastUrgent := 7
      lastData := 7
      lastRecord := 7 }
    command := { s.command with phase := s.command.phase.apartFromGrants }
    events := { s.events with
      holding := s.events.holding.map HeldEvent.apartFromGrants
      writeIndex := 0
      inFlight := 0
      cycle := true } }

/-- The frames of a staged record fetched so far, over all its passes (R36). -/
def StagedRecord.fetched (r : StagedRecord) : Nat := r.pass * r.record.frameCount.toNat + r.progress

/-- Context `d` is `c` with at most grants and presented requests on top: an OUTPUT FIFO gains places at its tail, and
what a record has fetched, its transfers outstanding and the bytes issued of a captured frame only rise. -/
def Stream.grantsTo (c d : Stream) : Prop :=
  d.apartFromGrants = c.apartFromGrants
    ∧ List.Forall₂ (fun r r' => r.outstanding ≤ r'.outstanding ∧ r.fetched ≤ r'.fetched) c.staging d.staging
    ∧ (c.direction = .output → c.fifo <+: d.fifo)
    ∧ (c.direction = .capture → List.Forall₂ (fun p p' => p.issued ≤ p'.issued ∧ p.writes ≤ p'.writes) c.fifo d.fifo)

/-- State `t` is `s` with at most grants and presented requests on top: nothing else changes, every transfer of `s`
stands, and the Event Unit has been granted at most one write. -/
def State.grantsTo (s t : State) : Prop :=
  t.apartFromGrants = s.apartFromGrants
    ∧ (∀ e r, s.transfer e = some r → t.transfer e = some r)
    ∧ (∀ n, (s.stream n).grantsTo (t.stream n))
    ∧ (t.events = s.events ∨ t.events = s.events.recordWrite)

/-! ### Completions and commands -/

/-- The completion of transfer `t` at entry `e` reaches its requester: the pin is released, the Transfer Unit is
in ISSUE and the engine is not QUIESCING (R178, R181). -/
def State.arrives (s : State) (e : TransferId) (t : Transfer) : Bool :=
  !s.pin && s.transfers.mode == .issue && s.engine.state != .quiescing && s.transfer e == some t

/-- Entry `e` holds the read of the command record at ring index `index`, and its completion reaches the Command
Unit (R118). -/
def State.commandRead (s : State) (e : TransferId) (index : Nat) : Bool :=
  !s.pin && s.transfers.mode == .issue && s.engine.state != .quiescing
    && (s.transfer e).any (fun t => t.requester == .commandRecord && t.item == .slot index)

/-- What a command read at entry `e` from ring index `index` leaves once it is answered (R118, R122, R123, R178): the
entry is free, and the CMD_DONE stands at the tail of the Event Holding List and the Command Unit is READY, or, without
room for it, it waits in the pending slot in REPORTING. -/
def State.answered (s : State) (e : TransferId) (record : Instr) (seq : BitVec 16) (index : Nat) (status : Status)
    (result : List Byte) (tell : Tell) : State :=
  let answer : Event := .cmdDone seq index status (padTo 16 result)
  let s := s.putTransfer e none
  let consumer := (s.command.consumer + 1) % s.command.size
  if s.roomFor commandProducer then
    { s with
      command := { s.command with
        consumer := consumer
        phase := .ready
        inProgress := none
        slot := none }
      events := { s.events with holding := s.events.holding ++ [⟨answer, false⟩] } }
  else
    { s with command := { s.command with
        consumer := consumer
        phase := .reporting
        inProgress := some ⟨record, index, seq, [], tell⟩
        slot := some answer } }

/-- The entry that a completion names. -/
def completionEntry : Instr → Option TransferId
  | .nop e _ => some e
  | .setGenerator e _ _ => some e
  | .enableGenerator e _ _ => some e
  | .disableGenerator e _ _ => some e
  | .openStream e _ _ => some e
  | .closeStream e _ _ => some e
  | .startNext e _ _ => some e
  | .startAt e _ _ => some e
  | .startTrigger e _ _ => some e
  | .stopNow e _ _ => some e
  | .stopAt e _ _ => some e
  | .stopTrigger e _ _ => some e
  | .stopDrain e _ _ => some e
  | .cancel e _ _ => some e
  | .setTrigger e _ _ _ _ => some e
  | .query e _ _ _ _ => some e
  | .unknownCommandKind e _ _ => some e
  | .controlRingAccess e => some e
  | .rootBlockLoad e _ => some e
  | .rootAccess e => some e
  | .dataReadComplete e _ => some e
  | .dataReadError e => some e
  | .dataWriteComplete e => some e
  | .dataWriteError e => some e
  | .recordReadComplete e _ => some e
  | .recordReadError e => some e
  | .eventWriteComplete e => some e
  | .eventRingAccess e => some e
  | _ => none

/-- A completion is of the transfer it names: its row is one of the transfer's requester (section 8.5). -/
def completesTransfer (i : Instr) (t : Transfer) : Bool :=
  match i with
  | .rootBlockLoad .. | .rootAccess .. => t.requester == .rootBlock
  | .dataReadComplete .. | .dataReadError .. => t.isData false
  | .dataWriteComplete .. | .dataWriteError .. => t.isData true
  | .recordReadComplete .. | .recordReadError .. => t.isRecordRead
  | .eventWriteComplete .. | .eventRingAccess .. => t.requester == .eventWrite
  | _ => t.requester == .commandRecord

/-- The rows of a completion with ERROR (R179, R180). -/
def isFailure : Instr → Bool
  | .controlRingAccess _ => true
  | .rootAccess _ => true
  | .dataReadError _ => true
  | .dataWriteError _ => true
  | .recordReadError _ => true
  | .eventRingAccess _ => true
  | _ => false

/-! ### The checks of the commands, in the order of their tables -/

/-- The parameters of OPEN_STREAM are in range (R8). -/
def OpenParamsInRange (p : OpenParams) : Prop :=
  p.direction.toNat ≤ 1 ∧ p.generator.toNat ≤ 3 ∧ 1 ≤ p.slots.toNat ∧ p.slots.toNat ≤ 8
    ∧ (p.width.toNat = 16 ∨ p.width.toNat = 32)
    ∧ p.idleLevel.toNat ≤ 1 ∧ p.changeEdge.toNat ≤ 1 ∧ p.syncForm.toNat ≤ 1
    ∧ p.policy.toNat ≤ 2 ∧ ¬(p.policy.toNat = 1 ∧ p.direction.toNat = 1)
    ∧ p.base.toNat % 32 = 0
    ∧ (∃ k, 4 ≤ k ∧ k ≤ 12 ∧ p.size.toNat = 2 ^ k)
    ∧ p.start.toNat < p.size.toNat
    ∧ p.base.toNat + 32 * p.size.toNat - 1 < 2 ^ 64

/-- The generator to which a set is bound: that of its lowest stream. -/
def State.setGeneratorOf (s : State) (set : StreamSet) : GenNo :=
  match streamsOf set with
  | [] => 0
  | n :: _ => (s.stream n).generator

/-- The line of a TRIGGER condition, in range (R198). -/
def lineInRange (p : ScheduleParams) : Bool := p.condition != condTrigger || p.line.toNat < 4

/-- The line of a TRIGGER condition has an edge selection other than NONE; other conditions name no line. -/
def State.lineUsable (s : State) (p : ScheduleParams) : Bool :=
  p.condition != condTrigger || (s.line (Fin.ofNat 4 p.line.toNat)).selection != .noEdge

/-- The status with which START is refused, by the first check of R130 that fails. -/
def State.startRefusal (s : State) (p : ScheduleParams) : Option Status :=
  let g := s.setGeneratorOf p.streams
  if p.streams = 0 then some .badParam
  else if 2 < p.condition.toNat then some .badParam
  else if !lineInRange p then some .badParam
  else if ∃ n : StreamNo, p.streams.getLsbD n.val ∧ (s.stream n).state ≠ .idle then some .badState
  else if ∃ n : StreamNo, p.streams.getLsbD n.val ∧ (s.stream n).generator ≠ g then some .badParam
  else if (s.generator g).state ≠ .running then some .genOff
  else if !s.lineUsable p then some .badState
  else if ∃ n : StreamNo, p.streams.getLsbD n.val ∧
      Config.bitClockLimit * (s.generator g).divider < (s.generator g).frequency * (s.stream n).slots * (s.stream n).width
    then some .badParam
  else if Config.schedulePlaces ≤ s.schedule.entries.length then some .noEntry
  else none

/-- The status with which STOP is refused, by the first check of R132 that fails. -/
def State.stopRefusal (s : State) (p : ScheduleParams) : Option Status :=
  let g := s.setGeneratorOf p.streams
  if p.streams = 0 then some .badParam
  else if p.condition.toNat = 0 ∨ 4 < p.condition.toNat then some .badParam
  else if !lineInRange p then some .badParam
  else if p.condition = condDrain ∧ (streamsOf p.streams).length ≠ 1 then some .badParam
  else if p.condition = condNow then
    if ∃ n : StreamNo, p.streams.getLsbD n.val ∧
        ¬((s.stream n).state = .armed ∨ (s.stream n).isRunning ∨ (s.stream n).state = .faulted) then some .badState
    else none
  else if ∃ n : StreamNo, p.streams.getLsbD n.val ∧ !(s.stream n).isRunning then some .badState
  else if ∃ n : StreamNo, p.streams.getLsbD n.val ∧
      ((s.stream n).state = .draining ∨ (s.stream n).scheduleEntry ≠ none ∨ (s.stream n).inTail) then some .busy
  else if p.condition = condDrain then none
  else if ∃ n : StreamNo, p.streams.getLsbD n.val ∧ (s.stream n).generator ≠ g then some .badParam
  else if (s.generator g).state ≠ .running then some .genOff
  else if !s.lineUsable p then some .badState
  else if Config.schedulePlaces ≤ s.schedule.entries.length then some .noEntry
  else none

/-- The condition of an entry that START or STOP creates. -/
def createdCondition (p : ScheduleParams) : Condition :=
  if p.condition = condTrigger then .trigger (Fin.ofNat 4 p.line.toNat)
  else if p.condition = condAt then .atPosition
  else .next

/-- What START, and STOP with AT or TRIGGER, leaves when entry `id` is created for the set of `p` on generator `g`,
and the command is answered PENDING (R96, R97, R131, R135). -/
def State.created (s : State) (e : TransferId) (kind : EntryKind) (id : EntryId) (record : Instr) (seq : BitVec 16) (index : Nat)
    (p : ScheduleParams) : State :=
  let g := s.setGeneratorOf p.streams
  let q := (s.generator g).position
  let late := p.condition = condAt ∧ p.target.toNat ≤ q.toNat
  let fire := if p.condition = condTrigger then none
    else if p.condition = condAt ∧ q.toNat < p.target.toNat then some p.target
    else some (nextPosition q)
  let entry : ScheduleEntry :=
    { id := id
      kind := kind
      generator := g
      condition := createdCondition p
      firePosition := fire
      late := late
      streams := p.streams
      answered := 0
      lastRemoval := none
      state := .waiting
      creationAnswered := s.roomFor commandProducer
      closing := none
      behind := [] }
  let named (n : StreamNo) : Stream :=
    if p.streams.getLsbD n.val then
      { s.stream n with
        scheduleEntry := some id
        state := if kind = .start then .armed else (s.stream n).state }
    else s.stream n
  { s.answered e record seq index .pending
      (leBytes 1 id.toNat ++ leBytes 1 (decide late).toNat ++ leBytes 6 0 ++ leBytes 8 (positionCode fire)) (.entry id) with
    schedule := { s.schedule with entries := s.schedule.entries ++ [entry], idCounter := id + 1 }
    streams := Vector.ofFn named }

/-- What is decided for the closing event of entry `id`: it stands in the table with the event, or it has left the
table and the event is held (R108). -/
def State.closesWith (t : State) (id : EntryId) (state : EntryState) (ev : Event) : Prop :=
  (∀ y ∈ t.schedule.entries, y.id = id → y.state = state ∧ y.closing = some ev)
    ∧ ((∀ y ∈ t.schedule.entries, y.id ≠ id) → ev ∈ t.events.holding.map (fun h => h.event))

/-! ### What a step leaves alone -/

/-- `t` agrees with `s` beyond the streams and lanes of `touched`. Every other stream is as it was but for grants.
Every transfer but the one that `freed` names stands, an outstanding data read of a stream in `halted` perhaps marked for
discard (R66). The Event Holding List gains events at its tail, and posting, release and moderation are as they were. -/
def State.agreesBeyond (s t : State) (freed : Option TransferId) (touched halted : StreamNo → Prop) : Prop :=
  (∀ n, ¬touched n → (s.stream n).grantsTo (t.stream n) ∧ t.port n = s.port n)
    ∧ (∀ e r, freed ≠ some e → s.transfer e = some r →
      t.transfer e = some r
        ∨ t.transfer e = some { r with discard := true }
          ∧ ∃ n, halted n ∧ r.requester = .streamData n ∧ r.isWrite = false)
    ∧ s.events.holding.map (fun h => h.event) <+: t.events.holding.map (fun h => h.event)
    ∧ t.events.posted = s.events.posted ∧ t.events.releaseIndex = s.events.releaseIndex
    ∧ t.events.pending = s.events.pending ∧ t.events.count = s.events.count
    ∧ t.events.timerRunning = s.events.timerRunning

/-- Every outstanding data read of the OUTPUT stream `n` is marked for discard, as its entry to STOPPING or FAULTED
leaves it; `freed` names the transfer whose completion caused that entry (R66). -/
def State.readsDiscarded (s t : State) (freed : Option TransferId) (n : StreamNo) : Prop :=
  (s.stream n).direction = .output → ∀ e r, freed ≠ some e → s.transfer e = some r → r.requester = .streamData n →
    r.isWrite = false → t.transfer e = some { r with discard := true }

/-- Engine Control, the register flags, the Transfer Unit's mode and Fault Address, the pin, the waiting commands, the
claims on the Stream Unit and the free choice of log 32 are as they were. -/
def State.agreesInControl (s t : State) : Prop :=
  t.engine = s.engine ∧ t.pin = s.pin ∧ t.notifyError = s.notifyError ∧ t.transfers.mode = s.transfers.mode
    ∧ t.transfers.lead = s.transfers.lead ∧ t.claimChoices = s.claimChoices
    ∧ t.transfers.faultAddress = s.transfers.faultAddress ∧ t.pending = s.pending ∧ t.streamLosses = s.streamLosses

/-- The run fields of a stream (R4) are as they were. -/
def Stream.sameRun (c d : Stream) : Prop :=
  d.startPosition = c.startPosition ∧ d.dataFrames = c.dataFrames ∧ d.gapFrames = c.gapFrames
    ∧ d.starvedFrames = c.starvedFrames ∧ d.starveRun = c.starveRun

/-- The reports of a stream are of their kinds: a STOP_DONE that is owed ends a run by END or drain, only a STOP_DONE is
gated as one of a drain (R137), and a CLOSED stream has nothing to report (R24, R46). -/
def Stream.reportConsistent (c : Stream) : Bool :=
  c.stopOwed.all (fun o => o.reason != .command)
    && c.pendingReport.all (fun r => !r.drainRun || r.event.isStopDone)
    && (c.state != .closed || (c.pendingReport.isNone && c.stopOwed.isNone && c.faultOwed.isNone))

/-- Nothing is left for the stream to report or retire until an event of its own (R40, R46). -/
def State.isSettled (s : State) (n : StreamNo) : Bool := (s.settleStep n).isNone

/-- The next edge of generator `g` is a tick in ACTIVE: it is the divider-th since the last tick (R79). -/
def State.ticksNext (s : State) (g : GenNo) : Prop :=
  s.isActive = true ∧ (s.generator g).state = .running ∧ (s.generator g).edges + 1 = (s.generator g).divider
    ∧ (s.generator g).position ≠ BitVec.allOnes 64

/-- No entry of kind `kind` that names stream `n` fires at the next tick of its generator (R99). -/
def State.notFiring (s : State) (n : StreamNo) (kind : EntryKind) : Prop :=
  ∀ x ∈ s.schedule.entries, (s.stream n).scheduleEntry = some x.id → x.kind = kind →
    x.firePosition ≠ some ((s.generator (s.stream n).generator).position + 1)

/-- Stream `n` is in a run that goes on through the next tick: the tick comes, no loss claim of the generator waits, no
STOP entry that names the stream fires at it, and no count stands at its top (R12, R79, R80, R99). -/
def State.runsOn (s : State) (n : StreamNo) : Prop :=
  let c := s.stream n
  s.ticksNext c.generator ∧ c.isRunning = true
    ∧ (c.state = .draining ∨ s.notFiring n .stop)
    ∧ (∀ l ∈ s.streamLosses, l.generator ≠ c.generator)
    ∧ c.dataFrames ≠ BitVec.allOnes 64 ∧ c.gapFrames ≠ BitVec.allOnes 64
    ∧ c.starvedFrames ≠ BitVec.allOnes 64 ∧ c.starveRun ≠ BitVec.allOnes 64

/-- The port of stream `n` after a tick whose frame is `frame`: it shifts the frame while the conditions of R23 hold
and is quiet otherwise (R70, R72). -/
def State.periodOf (s : State) (n : StreamNo) (frame : List Byte) : Port :=
  let c := s.stream n
  let x := s.generator c.generator
  if c.state ≠ .closed ∧ x.state = .running ∧ x.frequency * c.slots * c.width ≤ Config.bitClockLimit * x.divider then
    ⟨true, frame⟩
  else quietPort

/-- Entry `e` is WAITING for the next tick of its generator `g`, which its unanswered stream `n` will take (R99). -/
def State.firesNext (s : State) (g : GenNo) (n : StreamNo) (e : ScheduleEntry) (kind : EntryKind) : Prop :=
  s.ticksNext g ∧ (s.stream n).generator = g
    ∧ s.streamLosses = [] ∧ s.schedule.losses = []
    ∧ e ∈ s.schedule.entries ∧ (s.stream n).scheduleEntry = some e.id
    ∧ e.kind = kind ∧ e.generator = g ∧ e.state = .waiting
    ∧ e.firePosition = some ((s.generator g).position + 1) ∧ e.streams.getLsbD n.val = true

/-- The events of the holding list, in order. -/
def State.heldEvents (s : State) : List Event := s.events.holding.map (fun h => h.event)

/-- The event with which producer `p` waits (the table of R149). -/
def State.waitingEvent (s : State) (p : Producer) : Option Event :=
  match p.val with
  | 0 => s.command.slot
  | 1 => s.offerableClosing.map (fun x => x.2)
  | 2 => s.timebase.lostReports.head?.map (fun r => .referenceLost r.generator r.position)
  | k + 3 => (s.stream (Fin.ofNat 8 k)).pendingReport.map (fun r => r.event)

/-! ### The event entry (section 10.5) -/

/-- The fields of an event entry behind its kind and cycle flag, as the table of section 10.5 gives them: the first byte
of each, its size in bytes and its value. -/
def eventFields : Event → List (Nat × Nat × Nat)
  | .cmdDone seq index status result =>
    [(2, 1, statusCode status), (4, 2, seq.toNat), (6, 2, index)]
      ++ (List.range 16).map (fun k => (8 + k, 1, (result.getD k 0).toNat))
  | .bufferDone stream tag ring status reject moved first quiet =>
    [(2, 1, stream.val), (3, 1, retiredStatusCode status + 4 * quiet.toNat + 16 * rejectReasonCode reject), (4, 2, ring),
      (8, 4, tag.toNat), (12, 4, moved), (16, 8, positionCode first)]
  | .startDone entry generator streams position late =>
    [(2, 1, generator.val), (3, 1, late.toNat), (4, 1, entry.toNat), (5, 1, streams.toNat), (8, 8, position.toNat)]
  | .entryStopDone entry generator streams reason position late =>
    [(2, 1, generator.val), (3, 1, late.toNat + 2 + 16 * stopReasonCode reason), (4, 1, entry.toNat),
      (5, 1, streams.toNat), (8, 8, position.toNat)]
  | .streamStopDone stream generator reason position =>
    [(2, 1, generator.val), (3, 1, 16 * stopReasonCode reason), (5, 1, 2 ^ stream.val), (8, 8, position.toNat)]
  | .entryCleared entry kind reason => [(4, 1, entry.toNat), (5, 1, entryKindCode kind), (6, 1, clearReasonCode reason)]
  | .streamFault stream cause position =>
    [(2, 1, stream.val), (3, 1, faultCauseCode (some cause)), (8, 8, position.toNat)]
  | .referenceLost generator position => [(2, 1, generator.val), (8, 8, position.toNat)]
  | .starveBegin stream position missed => [(2, 1, stream.val), (4, 2, missed), (8, 8, position.toNat)]
  | .starveEnd stream position length missed =>
    [(2, 1, stream.val), (4, 2, missed), (8, 8, position.toNat), (16, 8, length.toNat)]
  | .mark stream tag position missed =>
    [(2, 1, stream.val), (4, 2, missed), (8, 4, tag.toNat), (16, 8, position.toNat)]
  | .trigger line edge missed marks =>
    [(2, 1, line.val), (3, 1, edgeCode edge), (4, 2, missed),
      (6, 1, (marks.zipIdx.map (fun (m, g) => generatorStateCode m.1 * 4 ^ g)).sum)]
      ++ marks.zipIdx.map (fun (m, g) => (8 + 6 * g, 6, m.2.toNat))

/-- Byte `j` of an event entry from its content on: the byte of the field that covers it, least significant byte first,
and 0 where no field does (section 10.5, R199). -/
def eventByte (e : Event) (j : Nat) : Byte :=
  match (eventFields e).find? (fun (offset, size, _) => offset ≤ j && j < offset + size) with
  | some (offset, _, value) => BitVec.ofNat 8 (value / 256 ^ (j - offset))
  | none => 0

/-! ### Invariants -/

/-- Engine Control, the Transfer Unit and the pin agree as R174, R184, R189, R192 and R193 give. In QUIESCING the
Transfer Unit is in SETTLE, or still in ISSUE while it takes completions ahead of the claim (R181). -/
def State.engineConsistent (s : State) : Bool :=
  (!s.pin || s.engine.state == .off) &&
    match s.engine.state with
    | .off => s.transfers.mode == .parked && s.transfers.lead == 0 && !s.engine.halt && s.engine.cause == .noCause
        && s.engine.root.isNone && s.tableEmpty
    | .loading => s.transfers.mode == .issue && s.transfers.lead == 0 && !s.engine.halt && s.engine.cause == .noCause
        && s.engine.root.isNone
    | .active => s.transfers.mode == .issue && s.transfers.lead == 0 && !s.engine.halt && s.engine.cause == .noCause
        && s.engine.root.isSome
    | .halted => s.transfers.mode == .settle && s.transfers.lead == 0 && s.engine.halt && s.engine.cause != .noCause
    | .quiescing => (s.transfers.mode == .settle && s.transfers.lead == 0
          || s.transfers.mode == .issue && s.transfers.lead != 0)
        && s.engine.halt == (s.engine.cause != .noCause) && !s.tableEmpty

/-- Slots and sample width are legal, and so the frame size is 2 to 32 bytes (R2, R8). -/
def Stream.shapeLegal (c : Stream) : Bool :=
  1 ≤ c.slots && c.slots ≤ 8 && (c.width == 16 || c.width == 32)

/-- The lists of the part stay within their places: the Event Holding List (R148), the Schedule Table (R93), every
staging list, counting the record read that could fill it (R30, R34), and every frame FIFO, whose places are of the
frame size (R49). A divider is not 0, and a RUNNING generator has counted fewer edges than its divider (R75, R79). -/
def State.bounded (s : State) : Bool :=
  s.events.holding.length ≤ Config.holdingPlaces
    && s.schedule.entries.length ≤ Config.schedulePlaces
    && Config.generators.all (fun g =>
      let x := s.generator g
      1 ≤ x.divider && (x.state != .running || x.edges < x.divider))
    && Config.streams.all (fun n =>
      let c := s.stream n
      c.shapeLegal
        && c.staging.length + s.outstanding (.streamRecord n) + c.readPresented.toNat ≤ Config.stagingPlaces
        && c.fifo.length ≤ Config.fifoPlaces && c.fifo.all (fun p => p.bytes.length == c.frameSize)
        && c.fetchSplit < c.frameSize)

/-- The staged records stand in ring order: each at the ring index after the one before, the consumer index after the
last (R3, R31, R34). -/
def Stream.inRingOrder (c : Stream) : Bool :=
  let indices := c.staging.map (fun r => r.ringIndex) ++ [c.consumer]
  16 ≤ c.ringSize && indices.all (fun i => i < c.ringSize)
    && (indices.zip indices.tail).all (fun (i, j) => (i + 1) % c.ringSize == j)

/-- A staged record keeps the validity it was given at its take (R28), and a valid one has a frame left to fetch or to
assign in its pass or is exhausted (R36, R37). -/
def Stream.recordConsistent (c : Stream) (r : StagedRecord) : Bool :=
  r.invalid == validate c r.record
    && (r.invalid.isSome
      || (r.pass < r.record.passes && (r.progress < r.record.frameCount.toNat || r.exhausted)))

/-- Every staging list is in ring order and its records are consistent. -/
def State.stagingConsistent (s : State) : Bool :=
  Config.streams.all (fun n => (s.stream n).inRingOrder && (s.stream n).staging.all (s.stream n).recordConsistent)

/-- Outside a freeze every stream has reported what it can, and its reports are of their kinds (R40, R46). -/
def State.settled (s : State) : Bool :=
  Config.streams.all (fun n => (s.stream n).reportConsistent
    && (s.engine.state == .halted || s.engine.state == .quiescing || s.isSettled n))

/-- The event is one that closes entry `id`: its ENTRY_CLEARED, START_DONE or STOP_DONE (R102, R103, R105). -/
def Event.closesEntry (id : EntryId) : Event → Bool
  | .startDone entry _ _ _ _ => entry == id
  | .entryStopDone entry _ _ _ _ _ => entry == id
  | .entryCleared entry _ _ => entry == id
  | _ => false

/-- The entries hold different ids (R95); one that is WAITING has no answer, and one that is WAITING or FIRING no
closing event (R94, R102); a closing event closes the entry that holds it (R102, R103, R105). -/
def State.scheduleConsistent (s : State) : Bool :=
  decide (s.schedule.entries.map (fun x => x.id)).Nodup
    && s.schedule.entries.all (fun x =>
      (x.state != .waiting || (x.answered == 0 && x.closing.isNone)) && (x.state != .firing || x.closing.isNone)
        && x.closing.all (Event.closesEntry x.id))

/-- While a place of the holding list is free no producer waits (R150). -/
def State.noneWaits (s : State) : Bool :=
  !s.placeFree || producers.all (fun p => !s.waits p)

/-- The command in progress is not yet to be answered: it is not in COMPLETING with both wait sets empty (R120). -/
def State.owesNoAnswer (s : State) : Bool :=
  s.command.phase != .completing || s.command.streamWait != 0 || !s.command.entryWait.isEmpty

/-- A CMD_DONE that waits, and the phase COMPLETING, belong to a command in progress (R120, R123), and COMPLETING
has something to wait for. -/
def State.commandConsistent (s : State) : Bool :=
  (s.command.slot.isNone || s.command.inProgress.isSome)
    && (s.command.phase != .completing || s.command.inProgress.isSome)
    && s.owesNoAnswer

/-- The law of R4: the run counts of a running stream add up to the ticks of its run. -/
def State.runLaw (s : State) : Prop :=
  ∀ n, (s.stream n).isRunning →
    (s.generator (s.stream n).generator).state ≠ .off ∧
    ∃ p, (s.stream n).startPosition = some p ∧
      (s.stream n).dataFrames + (s.stream n).gapFrames + (s.stream n).starvedFrames
        = (s.generator (s.stream n).generator).position - p + 1

/-- No 64-bit count stands at its top; beyond it the manual states no value (R80, log 5). -/
def State.belowTop (s : State) : Prop :=
  (∀ g, (s.generator g).position ≠ BitVec.allOnes 64) ∧
  ∀ n, (s.stream n).dataFrames ≠ BitVec.allOnes 64 ∧ (s.stream n).gapFrames ≠ BitVec.allOnes 64
    ∧ (s.stream n).starvedFrames ≠ BitVec.allOnes 64

end Sys2Proof.Machine
end

