-- ==== Sys2Proof/Certificates/Slice0/Obligations.lean ====
section
/-! DEFINITION. The statements for the provers, each a proposition that formalises rules of spec/. -/

open Sys2Proof Sys2Proof.Machine

/-! ### The queue, reset and the pin -/

/-- A step takes the command at the front of the queue and runs it with the queue's rest; with none waiting the block
idles, which is THE MODEL'S CHOICE (log 1). -/
def Obligations.StepRunsFrontCommand : Prop :=
  (∀ (s : State) (c : Instr) (rest : List Instr), s.pending = c :: rest →
    step s = exec c { s with pending := rest })
  ∧ ∀ s : State, s.pending = [] → step s = .next s

/-- What a full reset leaves in each block (R24, R73, R92, R112, R144, R167, R182, R193). -/
def Obligations.ResetLeaves : Prop :=
  let s := State.reset
  s.engine.state = .off ∧ s.engine.cause = .noCause ∧ s.engine.root = none ∧ s.deviceControlWord = 0
    ∧ s.engine.rootPointer = 0 ∧ s.notifyError = false ∧ s.interruptStatusWord = 0
    ∧ s.transfers.faultAddress = 0 ∧ s.transfers.mode = .parked ∧ (∀ e, s.transfer e = none)
    ∧ s.transfers.lastUrgent = 7 ∧ s.transfers.lastData = 7 ∧ s.transfers.lastRecord = 7
    ∧ (∀ n, (s.stream n).state = .closed ∧ (s.stream n).staging = [] ∧ (s.stream n).fifo = []
        ∧ (s.stream n).frameSize = 2 ∧ (s.stream n).ringSize = 16 ∧ (s.stream n).startPosition = none
        ∧ (s.stream n).pendingReport = none ∧ (s.stream n).scheduleEntry = none ∧ (s.port n).active = false)
    ∧ (∀ g, (s.generator g).state = .off ∧ (s.generator g).position = 0 ∧ (s.generator g).source = .oscA
        ∧ (s.generator g).frequency = 24576000)
    ∧ (∀ l, (s.line l).selection = .noEdge ∧ (s.line l).missed = 0)
    ∧ s.schedule.entries = [] ∧ s.schedule.idCounter = 0
    ∧ s.command.phase = .ready ∧ s.command.producer = 0 ∧ s.command.consumer = 0 ∧ s.command.inProgress = none
    ∧ s.events.holding = [] ∧ s.events.size = 64 ∧ s.events.writeIndex = 0 ∧ s.events.releaseIndex = 0
    ∧ s.events.cycle = true ∧ s.events.posted = 0 ∧ s.events.inFlight = 0 ∧ s.events.threshold = 1
    ∧ s.events.pending = false

/-- A full reset by register or by pin gives every block its reset values from any state, and keeps the model's own
free choices (logs 2 and 32). While the pin is asserted the window reads 0 and every write of it is discarded, and the
pin's release ends the reset (R193, R185). -/
def Obligations.FullResetTaken : Prop :=
  ∀ s : State,
    let kept : State := { State.reset with
      orderChoices := s.orderChoices
      claimChoices := s.claimChoices
      pending := s.pending }
    (∀ w, s.pin = false → wordReset w = true → exec (.reset w) s = .next kept)
    ∧ exec .resetPin s = .next { kept with pin := true }
    ∧ exec .resetPinRelease s = .next { s with pin := false }
    ∧ (s.pin = true → (∀ offset width, s.readWindow offset width = 0)
      ∧ (∀ w i, i = Instr.enable w ∨ i = Instr.engineDisable w ∨ i = Instr.reset w ∨ i = Instr.interruptEnable w
          ∨ i = Instr.notifyErrorClear w ∨ i = Instr.controlRingNotify w ∨ i = Instr.streamRingNotify w
          ∨ i = Instr.eventRingRelease w ∨ (∃ high, i = Instr.rootPointerWrite high w) → exec i s = .next s)
      ∧ ∀ offset width value, exec (.registerWriteDiscarded offset width value) s = .next s)

/-! ### The register window (sections 8.1, 8.2 and 9.2) -/

/-- A read of the window returns the registers as section 10.7 lays them out, and 0 at every other offset, of Ring
Notify and for every width but 32 bits. A write that reaches no writable register changes nothing. A Device Status
write clears NOTIFY_ERROR exactly when its bit 8 is 1 and does nothing else. Root Pointer takes each half in OFF,
keeps the other half, and discards the write in every other state (R168, R171, R194, R195, R196, R197, R200). -/
def Obligations.WritesDiscardedOrTaken : Prop :=
  (∀ s : State, s.pin = false →
    let number (state : EngineState) : Nat := match state with
      | .off => 0
      | .loading => 1
      | .active => 2
      | .quiescing => 3
      | .halted => 4
    let code (cause : HaltCause) : Nat := match cause with
      | .noCause => 0
      | .rootInvalid => 1
      | .rootAccess => 2
      | .controlRingAccess => 3
      | .eventRingAccess => 4
    let enabled := s.engine.state == .loading || s.engine.state == .active || s.engine.state == .halted
    let line := s.engine.interruptEnable && (s.events.pending || s.engine.halt)
    s.readWindow 0x00 4 = 0x24081C01
      ∧ (s.readWindow 0x04 4).toNat = enabled.toNat + 4 * s.engine.interruptEnable.toNat
      ∧ (s.readWindow 0x08 4).toNat = number s.engine.state + 16 * code s.engine.cause + 256 * s.notifyError.toNat
      ∧ (s.readWindow 0x10 4).toNat = s.engine.rootPointer.toNat % 2 ^ 32
      ∧ (s.readWindow 0x14 4).toNat = s.engine.rootPointer.toNat / 2 ^ 32
      ∧ (s.readWindow 0x1C 4).toNat = s.events.pending.toNat + 2 * s.engine.halt.toNat + 4 * line.toNat
      ∧ (s.readWindow 0x20 4).toNat = s.transfers.faultAddress.toNat % 2 ^ 32
      ∧ (s.readWindow 0x24 4).toNat = s.transfers.faultAddress.toNat / 2 ^ 32
      ∧ ∀ offset width, width ≠ 4 ∨ ¬(offset = 0x00 ∨ offset = 0x04 ∨ offset = 0x08 ∨ offset = 0x10 ∨ offset = 0x14
          ∨ offset = 0x1C ∨ offset = 0x20 ∨ offset = 0x24) → s.readWindow offset width = 0)
  ∧ (∀ (s : State) (offset width : Nat) (value : BitVec 64), isDiscardedWrite offset width value = true →
    exec (.registerWriteDiscarded offset width value) s = .next s)
  ∧ ∀ (s : State) (w : BitVec 32), s.pin = false →
    exec (.notifyErrorClear w) s = .next { s with notifyError := s.notifyError && !w.getLsbD 8 }
    ∧ (s.engine.state = .off →
      (∃ t, exec (.rootPointerWrite false w) s = .next t
        ∧ t = { s with engine := { s.engine with rootPointer := t.engine.rootPointer } }
        ∧ t.readWindow 0x10 4 = w ∧ t.readWindow 0x14 4 = s.readWindow 0x14 4)
      ∧ (∃ t, exec (.rootPointerWrite true w) s = .next t
        ∧ t = { s with engine := { s.engine with rootPointer := t.engine.rootPointer } }
        ∧ t.readWindow 0x14 4 = w ∧ t.readWindow 0x10 4 = s.readWindow 0x10 4))
    ∧ (s.engine.state ≠ .off → ∀ high, exec (.rootPointerWrite high w) s = .next s)

/-- Every host write of the window is one well-formed row, whose effect is that of the write (R168, R169, R185). That
a Ring Notify whose id is above 9 and every Device Control word belong to the rows they do is THE MODEL'S CHOICE (log
22): the table of commands names no row for them. -/
def Obligations.EveryWriteIsOneRow : Prop :=
  ∀ (s : State) (offset width : Nat) (value : BitVec 64),
    WellFormed (decodeRegisterWrite offset width value) = true
      ∧ exec (decodeRegisterWrite offset width value) s = .next (s.writeWindow offset width value)

/-- A Ring Notify write is refused outside ACTIVE, for a ring id above 9, for an index at or above the ring's size,
and for a CLOSED stream: NOTIFY_ERROR is set and nothing else changes (R169, R170, R171). -/
def Obligations.RingNotifyRefused : Prop :=
  ∀ (s : State) (w : BitVec 32), s.pin = false →
    (s.engine.state ≠ .active ∨ 10 ≤ notifyRing w
      ∨ (notifyRing w = 0 ∧ s.command.size ≤ notifyIndex w)
      ∨ (∃ n : StreamNo, notifyRing w = n.val + 1 ∧ ((s.stream n).state = .closed ∨ (s.stream n).ringSize ≤ notifyIndex w))
      ∨ (notifyRing w = 9 ∧ s.events.size ≤ notifyIndex w)) →
    exec (.controlRingNotify w) s = .next { s with notifyError := true }
    ∧ exec (.streamRingNotify w) s = .next { s with notifyError := true }
    ∧ exec (.eventRingRelease w) s = .next { s with notifyError := true }

/-- An accepted notify sets its ring's producer index to the value written and changes nothing else apart from grants.
In READY a producer index that differs from the consumer index has the Command Unit read the 64 bytes at base + 64 ×
consumer index, granted when no higher class asks. A stream in a taking state, with no record read outstanding, a place
in its staging list, no END record that closes its ring and its drain limit not reached, has the 32 bytes at ring base +
32 × consumer index read: the request is granted, or it stays presented while no entry of the table is free. That both
come within this step is THE MODEL'S reading (log 11), and so is the tail of an ended run (log 7) (R114, R117, R3, R14,
R30, R32, R64, R170, R175, R202). -/
def Obligations.RingNotifySetsProducer : Prop :=
  ∀ (s : State) (w : BitVec 32), s.pin = false → s.engine.state = .active →
    (notifyRing w = 0 → notifyIndex w < s.command.size →
      ∃ t, exec (.controlRingNotify w) s = .next t ∧ t.command.producer = notifyIndex w
        ∧ { s with command := { s.command with producer := notifyIndex w } }.grantsTo t
        ∧ (s.transfers.mode = .issue → notifyIndex w ≠ s.command.consumer → s.command.phase = .ready →
          (∀ e, s.transfer e = none) → (∀ n, (s.stream n).state = .closed) → s.events.holding = [] →
          t.command.phase = .fetching
            ∧ t.transfer 0 = some ⟨.commandRecord, .slot s.command.consumer, false,
                s.command.base + BitVec.ofNat 64 (64 * s.command.consumer), 64, [], false⟩))
    ∧ (∀ n : StreamNo, notifyRing w = n.val + 1 → (s.stream n).state ≠ .closed → notifyIndex w < (s.stream n).ringSize →
      let c := s.stream n
      ∃ t, exec (.streamRingNotify w) s = .next t ∧ (t.stream n).producer = notifyIndex w
        ∧ (s.putStream n { c with producer := notifyIndex w }).grantsTo t
        ∧ (c.isTaking = true → (∀ e r, s.transfer e = some r → r.requester ≠ .streamRecord n) → c.staging.length < 16 →
          notifyIndex w ≠ c.consumer → (∀ r ∈ c.staging, r.invalid = none → r.record.endFlag = false) →
          c.inTail = false → (c.state = .draining → c.drainLimit ≠ some c.consumer) →
          (t.stream n).readPresented = true ∧ (s.transfers.mode = .issue → ∀ e, t.transfer e ≠ none)
          ∨ ∃ e, s.transfer e = none ∧ t.transfer e = some ⟨.streamRecord n, .slot c.consumer, false,
              c.ringBase + BitVec.ofNat 64 (32 * c.consumer), 32, [], false⟩))

/-- A release of the Event Ring frees the entries the table of R159 gives, clears PENDING and leaves the moderation
count and the holdoff timer; one that reaches beyond the posted count is refused (R159, R164). -/
def Obligations.ReleaseFreesEntries : Prop :=
  ∀ (s : State) (w : BitVec 32), s.pin = false → s.engine.state = .active → notifyRing w = 9 →
    notifyIndex w < s.events.size → s.events.releaseIndex < s.events.size →
    let n := (notifyIndex w + s.events.size - s.events.releaseIndex) % s.events.size
    let freed := if n = 0 then (if s.events.posted = s.events.size then s.events.size else 0) else n
    (s.events.posted < n → exec (.eventRingRelease w) s = .next { s with notifyError := true })
    ∧ (n ≤ s.events.posted →
      ∃ t, exec (.eventRingRelease w) s = .next t
        ∧ { s with events := { s.events with
            releaseIndex := notifyIndex w
            posted := s.events.posted - freed
            pending := false } }.grantsTo t)

/-- ENABLE written 1 in OFF: the engine enters LOADING and its one read of the 64 bytes at Root Pointer is granted,
or, with a Root Pointer that is no multiple of 64, it enters HALTED with cause ROOT_INVALID (R185, R186, R189). -/
def Obligations.EnableBeginsBringUp : Prop :=
  ∀ (s : State) (w : BitVec 32), s.pin = false → s.engine.state = .off → (∀ e, s.transfer e = none) →
    wordEnable w = true → wordReset w = false →
    (s.engine.rootPointer.toNat % 64 = 0 →
      ∃ t, exec (.enable w) s = .next t
        ∧ t.transfer 0 = some ⟨.rootBlock, .rootBlock, false, s.engine.rootPointer, 64, [], false⟩
        ∧ { s with
            engine := { s.engine with state := .loading, interruptEnable := wordInterruptEnable w }
            transfers := { s.transfers with mode := .issue } }.grantsTo t)
    ∧ (s.engine.rootPointer.toNat % 64 ≠ 0 →
      exec (.enable w) s = .next { s with
        engine := { s.engine with
          state := .halted
          cause := .rootInvalid
          halt := true
          interruptEnable := wordInterruptEnable w }
        transfers := { s.transfers with mode := .settle, lead := 0 }
        ports := Vector.replicate 8 quietPort
        events := { s.events with timerRunning := false } })

/-- A Device Control write that does not change ENABLE, and one that sets it in QUIESCING, takes INTERRUPT_ENABLE
alone, and the interrupt line follows at once (R185, R165). -/
def Obligations.InterruptEnableTakenAlone : Prop :=
  ∀ (s : State) (w : BitVec 32), s.pin = false → wordReset w = false →
    (wordEnable w = s.engine.state.enabled ∨ s.engine.state = .quiescing) →
    (∀ i, i = Instr.interruptEnable w ∨ i = Instr.enable w ∨ i = Instr.engineDisable w →
      exec i s = .next { s with engine := { s.engine with interruptEnable := wordInterruptEnable w } })
    ∧ ({ s with engine := { s.engine with interruptEnable := wordInterruptEnable w } } : State).lineLevel
        = (wordInterruptEnable w && (s.events.pending || s.engine.halt))

/-- ENABLE cleared in LOADING, ACTIVE or HALTED: with transfers outstanding the engine freezes in QUIESCING. The
Transfer Unit enters SETTLE, at once or, where R181 leaves the order open, after as many completions as the free
choice of log 32 says; until then it stays in ISSUE. With none outstanding the engine enters OFF at once with the
values after an engine disable (R191, R192, R182, R174, R181). -/
def Obligations.DisableQuiesces : Prop :=
  ∀ (s : State) (w : BitVec 32), s.pin = false → wordEnable w = false → wordReset w = false →
    (s.engine.state = .loading ∨ s.engine.state = .active ∨ s.engine.state = .halted) →
    let issues := s.transfers.mode == .issue
    let ahead := if issues then s.claimChoices.headD 0 else 0
    (s.tableEmpty = false →
      exec (.engineDisable w) s = .next { s with
        engine := { s.engine with state := .quiescing, interruptEnable := wordInterruptEnable w }
        transfers := { s.transfers with
          mode := if ahead = 0 then .settle else .issue
          lead := ahead }
        ports := Vector.replicate 8 quietPort
        events := { s.events with timerRunning := false }
        claimChoices := if issues then s.claimChoices.tail else s.claimChoices })
    ∧ (s.tableEmpty = true →
      exec (.engineDisable w) s = .next { State.reset with
        engine := { State.reset.engine with
          interruptEnable := wordInterruptEnable w
          rootPointer := s.engine.rootPointer }
        transfers := { State.reset.transfers with faultAddress := s.transfers.faultAddress }
        orderChoices := s.orderChoices
        claimChoices := s.claimChoices
        pending := s.pending })

/-! ### Bring-up, halts and completions (sections 8.5, 9.3 and 9.4) -/

/-- The OK completion of the Root Block read in LOADING: the block is valid exactly when every value is legal, every
reserved field is zero and both rings end within the address space. A valid block becomes the Root Block copy, its two
users get their rings, the Event Ring is written from index 0 with cycle flag 1, and the engine enters ACTIVE; an
invalid one halts the engine with ROOT_INVALID and leaves Fault Address (R187, R188, R189, R114, R153, R166). -/
def Obligations.RootBlockLoads : Prop :=
  ∀ (s : State) (e : TransferId) (t : Transfer) (b : RootBlock), s.arrives e t = true → t.requester = .rootBlock →
    s.engine.state = .loading →
    let valid : Prop :=
      64 ∣ b.controlBase.toNat ∧ 32 ∣ b.eventBase.toNat
        ∧ (∃ k, 4 ≤ k ∧ k ≤ 10 ∧ b.controlSize.toNat = 2 ^ k)
        ∧ (∃ k, 6 ≤ k ∧ k ≤ 12 ∧ b.eventSize.toNat = 2 ^ k)
        ∧ 1 ≤ b.threshold.toNat ∧ b.threshold.toNat ≤ 64 ∧ b.holdoff.toNat ≤ 1000
        ∧ b.reserved21 = 0 ∧ b.reserved24 = 0
        ∧ b.controlBase.toNat + 64 * b.controlSize.toNat - 1 < 2 ^ 64
        ∧ b.eventBase.toNat + 32 * b.eventSize.toNat - 1 < 2 ^ 64
    (valid →
      ∃ u, exec (.rootBlockLoad e b) s = .next u
        ∧ { s.putTransfer e none with
            engine := { s.engine with state := .active, root := some b }
            command := { s.command with
              base := b.controlBase, size := b.controlSize.toNat, producer := 0, consumer := 0 }
            events := { s.events with
              base := b.eventBase, size := b.eventSize.toNat, writeIndex := 0, releaseIndex := 0, cycle := true
              posted := 0, inFlight := 0, threshold := b.threshold.toNat, holdoff := b.holdoff.toNat, count := 0
              timerRunning := false } }.grantsTo u)
    ∧ (¬valid →
      exec (.rootBlockLoad e b) s = .next { s.putTransfer e none with
        engine := { s.engine with state := .halted, cause := .rootInvalid, halt := true }
        transfers := { (s.putTransfer e none).transfers with mode := .settle, lead := 0 }
        ports := Vector.replicate 8 quietPort
        events := { s.events with timerRunning := false } })

/-- A fatal ERROR completion in LOADING or ACTIVE halts the engine with the cause of the failed access and records its
address; lanes go quiet, the holdoff timer stops, and every block is left as it stood: no command is taken nor event
posted (R119, R157, R179, R180, R189). -/
def Obligations.FatalErrorHalts : Prop :=
  ∀ (s : State) (e : TransferId) (t : Transfer), s.arrives e t = true →
    (s.engine.state = .loading ∨ s.engine.state = .active) →
    let halted (cause : HaltCause) : State := { s with
      engine := { s.engine with state := .halted, cause := cause, halt := true }
      transfers := { (s.putTransfer e none).transfers with mode := .settle, lead := 0, faultAddress := t.address }
      ports := Vector.replicate 8 quietPort
      events := { s.events with timerRunning := false } }
    (t.requester = .rootBlock → exec (.rootAccess e) s = .next (halted .rootAccess))
    ∧ (t.requester = .commandRecord → exec (.controlRingAccess e) s = .next (halted .controlRingAccess))
    ∧ (t.requester = .eventWrite → exec (.eventRingAccess e) s = .next (halted .eventRingAccess))

/-- A completion that names a free entry changes nothing. Outside ISSUE a completion frees its entry and reaches no
requester; the last one of a quiesce ends it in OFF with the values after an engine disable. One that is taken in
ISSUE ahead of the quiesce claim (log 32) frees its entry too: an OK one changes nothing else, and the claim follows
once as many have been taken as the free choice said; one with ERROR sets Fault Address and leaves the engine
QUIESCING with nothing reported, faults a stream in a taking state, or, when fatal, puts the Transfer Unit in SETTLE
(R174, R178, R181, R183, R192). -/
def Obligations.SettleDiscardsCompletions : Prop :=
  ∀ (i : Instr) (s : State) (e : TransferId), completionEntry i = some e →
    (s.transfer e = none → exec i s = .next s)
    ∧ ∀ t : Transfer, s.pin = false → s.transfer e = some t → completesTransfer i t = true →
      let freed := s.putTransfer e none
      let off (fault : Addr) : State := { State.reset with
        engine := { State.reset.engine with
          interruptEnable := s.engine.interruptEnable
          rootPointer := s.engine.rootPointer }
        transfers := { State.reset.transfers with faultAddress := fault }
        orderChoices := s.orderChoices
        claimChoices := s.claimChoices
        pending := s.pending }
      (s.transfers.mode ≠ .issue →
        (s.engine.state ≠ .quiescing ∨ freed.tableEmpty = false → exec i s = .next freed)
        ∧ (s.engine.state = .quiescing → freed.tableEmpty = true → exec i s = .next (off s.transfers.faultAddress)))
      ∧ (s.transfers.mode = .issue → s.engine.state = .quiescing →
        (isFailure i = false →
          exec i s = .next (
            if freed.tableEmpty then off s.transfers.faultAddress
            else if s.transfers.lead ≤ 1 then
              { freed with transfers := { freed.transfers with mode := .settle, lead := 0 } }
            else { freed with transfers := { freed.transfers with lead := s.transfers.lead - 1 } }))
        ∧ (isFailure i = true →
          (freed.tableEmpty = true → exec i s = .next (off t.address))
          ∧ (freed.tableEmpty = false →
            ∃ u, exec i s = .next u ∧ u.transfers.faultAddress = t.address ∧ u.engine = s.engine ∧ u.transfer e = none
              ∧ u.heldEvents = s.heldEvents ∧ u.command = s.command ∧ u.timebase = s.timebase ∧ u.ports = s.ports
              ∧ (u.transfers.mode = .issue ↔ t.requester.stream? ≠ none ∧ 1 < s.transfers.lead)
              ∧ ∀ n : StreamNo, (t.requester.stream? ≠ some n → u.stream n = s.stream n)
                ∧ (t.requester.stream? = some n → (s.stream n).isTaking = true →
                  (u.stream n).state = .faulted ∧ (s.stream n).sameRun (u.stream n)))))

/-! ### The arbiter and the forming of transfers (sections 3.2, 7.3 and 8.4) -/

/-- One grant takes the lowest-numbered free entry and serves the first class that holds a presented request; within
classes 1, 4 and 5 it goes to the first stream in circular order after the one served last in that class, which
becomes the last served. The transfer is formed from its requester's state as it stands: the Root Block read, the data
read or write of R52 or R61 with what R53 or R61 records of it, the event write of R154, the 64 bytes of the command
record at the consumer index, or the 32 bytes of the stream record at the consumer index. Nothing else changes (R30,
R52, R53, R61, R117, R154, R155, R172, R173, R175, R177, R186). -/
def Obligations.GrantServesFirstClass : Prop :=
  ∀ s u : State, s.grantOne = some u →
    let asks (n : StreamNo) : Bool := s.wantsData n
    let urgent (n : StreamNo) : Bool := s.wantsData n && (s.stream n).isUrgent
    let record (n : StreamNo) : Bool := (s.stream n).readPresented
    let next (last : StreamNo) (from_ : StreamNo → Bool) (n : StreamNo) : Prop :=
      from_ n = true ∧ ∀ m, from_ m = true → (n - last - 1).val ≤ (m - last - 1).val
    let served (urgent data record : StreamNo) : Prop :=
      u.transfers.lastUrgent = urgent ∧ u.transfers.lastData = data ∧ u.transfers.lastRecord = record
    let unserved : Prop := served s.transfers.lastUrgent s.transfers.lastData s.transfers.lastRecord
    let only (n : StreamNo) (c : Stream) : Prop := u.events = s.events ∧ u.streams = (s.putStream n c).streams
    let dataOf (n : StreamNo) (t : Transfer) : Prop :=
      let c := s.stream n
      (c.direction = .output → ∃ r ∈ c.current, t = c.formRead n r ∧ only n (c.recordRead r t.length).prefetchGaps)
        ∧ (c.direction = .capture → c.formWrite n = some t
          ∧ ∃ ring pass offset, t.item = .frames ring pass offset ∧ only n (c.recordWrite ring offset t.length))
    ∃ (e : TransferId) (t : Transfer),
      s.transfer e = none ∧ (∀ e' < e, s.transfer e' ≠ none) ∧ u.transfer e = some t
        ∧ (∀ e', e' ≠ e → u.transfer e' = s.transfer e')
        ∧ s.grantsTo u
        ∧ (if s.wantsRoot = true then
            t = ⟨.rootBlock, .rootBlock, false, s.engine.rootPointer, 64, [], false⟩ ∧ unserved
              ∧ u.streams = s.streams ∧ u.events = s.events
          else if ∃ n, urgent n = true then
            ∃ n, next s.transfers.lastUrgent urgent n ∧ dataOf n t
              ∧ served n s.transfers.lastData s.transfers.lastRecord
          else if s.wantsEventWrite = true then
            t = s.events.formWrite ∧ u.events = s.events.recordWrite ∧ u.streams = s.streams ∧ unserved
          else if s.wantsCommand = true then
            t = ⟨.commandRecord, .slot s.command.consumer, false,
                s.command.base + BitVec.ofNat 64 (64 * s.command.consumer), 64, [], false⟩
              ∧ u.streams = s.streams ∧ u.events = s.events ∧ unserved
          else if ∃ n, asks n = true then
            ∃ n, next s.transfers.lastData asks n ∧ dataOf n t
              ∧ served s.transfers.lastUrgent n s.transfers.lastRecord
          else
            ∃ n, next s.transfers.lastRecord record n
              ∧ t = ⟨.streamRecord n, .slot (s.stream n).consumer, false,
                  (s.stream n).ringBase + BitVec.ofNat 64 (32 * (s.stream n).consumer), 32, [], false⟩
              ∧ only n { s.stream n with readPresented := false }
              ∧ served s.transfers.lastUrgent s.transfers.lastData n)

/-- A data read carries 1 to 256 bytes of one pass of its record, within one aligned 4 KiB block, starting at the
fetch point, and ends at a frame's end or at the block's end; at its grant a place is reserved at the FIFO's tail for
each frame whose first byte it carries, within the 32 places, and the fetch point moves behind it. A data write
carries, within the same limits, the oldest bytes to be written of one record from their frame's place in its buffer
on; its candidate is complete when it reaches 256 bytes, the next 4 KiB boundary, the record's last frame or 8 frames.
That a frame of which an earlier write carries a part counts as one of these 8 is THE MODEL'S reading of R61 (log 19)
(R36, R49, R52, R53, R61, R173). -/
def Obligations.DataReadWithinLimits : Prop :=
  (∀ (c : Stream) (n : StreamNo) (r : StagedRecord), c.shapeLegal = true → c.fetchSplit < c.frameSize →
    c.recordConsistent r = true → r.isOpen = true → r.record.isData = true →
    c.fifo.length ≤ 32 → (c.fifo.length < 32 ∨ c.fetchSplit ≠ 0) →
    let t := c.formRead n r
    let size := c.frameSize
    let frames := r.record.frameCount.toNat
    let offset := r.progress * size + c.fetchSplit
    let carried := (List.range frames).filter (fun k => offset ≤ k * size && k * size < offset + t.length)
    let fetched := (offset + t.length) / size
    let wraps := fetched = frames ∧ r.pass + 1 < r.record.passes
    t.requester = .streamData n ∧ t.isWrite = false ∧ t.item = .frames r.ringIndex r.pass offset
      ∧ t.address.toNat = r.record.address.toNat + offset ∧ 1 ≤ t.length ∧ t.length ≤ 256
      ∧ t.address.toNat % 4096 + t.length ≤ 4096
      ∧ offset + t.length ≤ frames * size
      ∧ ((offset + t.length) % size = 0 ∨ t.address.toNat % 4096 + t.length = 4096)
      ∧ c.fifo.length + carried.length ≤ 32
      ∧ ((∀ x ∈ c.staging, x.ringIndex = r.ringIndex → x = r) →
        c.recordRead r t.length = { c with
          fifo := c.fifo ++ carried.map (fun k =>
            (⟨r.ringIndex, r.pass, k, false, List.replicate size none, 0, 0, 0, false⟩ : Place))
          fetchSplit := (offset + t.length) % size
          staging := c.staging.map (fun x =>
            if x.ringIndex = r.ringIndex then
              { r with
                outstanding := r.outstanding + 1
                pass := if wraps then r.pass + 1 else r.pass
                progress := if wraps then 0 else fetched }
            else x) }))
  ∧ ∀ (c : Stream) (n : StreamNo) (p : Place) (rest : List Place) (r : StagedRecord), c.shapeLegal = true →
    c.candidate = p :: rest → c.recordAt p.ring = some r → c.recordConsistent r = true → r.invalid = none →
    r.record.isData = true → (∀ q ∈ c.fifo, q.bytes.length = c.frameSize) →
    p.frame + rest.length < r.record.frameCount.toNat →
    let size := c.frameSize
    let unwritten := c.fifo.filter (fun q => q.issued < size && !q.givenUp)
    let offset := p.frame * size + p.issued
    let bytes := (rest.length + 1) * size - p.issued
    let address := r.record.address.toNat + offset
    (unwritten.take (rest.length + 1) = p :: rest ∧ (∀ q ∈ rest, q.ring = p.ring)
        ∧ ∀ q ∈ unwritten[rest.length + 1]?, q.ring ≠ p.ring)
      ∧ (c.candidateComplete = true ↔ 256 ≤ bytes ∨ 4096 ≤ address % 4096 + bytes
          ∨ p.frame + rest.length + 1 = r.record.frameCount.toNat ∨ 8 ≤ rest.length + 1)
      ∧ ∃ t, c.formWrite n = some t ∧ t.requester = .streamData n ∧ t.isWrite = true ∧ t.discard = false
        ∧ t.item = .frames p.ring 0 offset ∧ t.address.toNat = address ∧ 1 ≤ t.length ∧ t.length ≤ 256
        ∧ t.length ≤ bytes ∧ address % 4096 + t.length ≤ 4096
        ∧ ((offset + t.length) % size = 0 ∨ address % 4096 + t.length = 4096)
        ∧ t.data = (((p :: rest).flatMap (fun q => q.bytes.map (fun b => b.getD 0))).drop p.issued).take t.length
        ∧ c.recordWrite p.ring offset t.length = { c with
            fifo := c.fifo.map (fun q =>
              let k := min ((q.frame + 1) * size) (offset + t.length) - max (q.frame * size) offset
              if q.ring = p.ring ∧ 0 < k then { q with issued := q.issued + k, writes := q.writes + 1 } else q)
            staging := c.staging.map (fun x =>
              if x.ringIndex = p.ring then { x with outstanding := x.outstanding + 1 } else x) }

/-- An event write carries the 1 to 4 oldest events under the current cycle flag, as many as the free entries, the
ring's end and the next 4 KiB boundary allow; they are marked and in flight, posted and in-flight entries stay within
the ring, and the cycle flag turns where the ring's end is passed. Each entry is 32 bytes: byte 0 the event's kind,
never 0, byte 1 the cycle flag alone, and every further byte that of the field which the table of section 10.5 puts
there, or 0 (R153, R154, R155, R158, R199). -/
def Obligations.EventWriteWithinLimits : Prop :=
  (∀ e : EventUnit, e.holding ≠ [] → 0 < e.free → e.writeIndex < e.size → e.base.toNat % 32 = 0 →
    e.base.toNat + 32 * e.size ≤ 2 ^ 64 →
    let t := e.formWrite
    let k := e.writeCount
    1 ≤ k ∧ k ≤ 4 ∧ k ≤ e.holding.length ∧ k ≤ e.free ∧ e.writeIndex + k ≤ e.size
      ∧ t.address.toNat % 4096 + t.length ≤ 4096
      ∧ (k = 4 ∨ k = e.holding.length ∨ k = e.free ∨ e.writeIndex + k = e.size
        ∨ t.address.toNat % 4096 + t.length = 4096)
      ∧ t.requester = .eventWrite ∧ t.isWrite = true ∧ t.item = .entries k ∧ t.discard = false
      ∧ t.address.toNat = e.base.toNat + 32 * e.writeIndex ∧ t.length = 32 * k ∧ t.data.length = 32 * k
      ∧ t.data = (e.holding.take k).flatMap (fun h => encodeEvent e.cycle h.event)
      ∧ e.recordWrite = { e with
          holding := (e.holding.take k).map (fun h : HeldEvent => { h with inWrite := true }) ++ e.holding.drop k
          inFlight := e.inFlight + k
          writeIndex := (e.writeIndex + k) % e.size
          cycle := if e.writeIndex + k = e.size then !e.cycle else e.cycle }
      ∧ e.recordWrite.posted + e.recordWrite.inFlight ≤ e.size)
  ∧ ∀ (cycle : Bool) (e : Event), (encodeEvent cycle e).length = 32
    ∧ (encodeEvent cycle e).getD 0 0 = BitVec.ofNat 8 (eventKindCode e)
    ∧ (encodeEvent cycle e).getD 0 0 ≠ 0
    ∧ (encodeEvent cycle e).getD 1 0 = (if cycle then 1 else 0)
    ∧ ∀ j, 2 ≤ j → j < 32 → (encodeEvent cycle e).getD j 0 = eventByte e j

/-! ### Commands (chapter 6) -/

/-- NOP is answered OK and a record of an unknown kind is refused with UNKNOWN, each with a zero result and no other
change (R121, R124). -/
def Obligations.NopAndUnknownAnswered : Prop :=
  ∀ (s : State) (e : TransferId) (seq : BitVec 16) (index : Nat), s.commandRead e index = true →
    (∃ t, exec (.nop e seq) s = .next t
      ∧ (s.answered e (.nop e seq) seq index .ok (List.replicate 16 0) .nobody).grantsTo t)
    ∧ ∀ kind, ∃ t, exec (.unknownCommandKind e seq kind) s = .next t
      ∧ (s.answered e (.unknownCommandKind e seq kind) seq index .unknown (List.replicate 16 0) .nobody).grantsTo t

/-- SET_GENERATOR: the checks in the order of R125, and the configuration that an OFF generator takes (R125). -/
def Obligations.SetGeneratorConfigures : Prop :=
  ∀ (s : State) (e : TransferId) (seq : BitVec 16) (index : Nat) (p : GeneratorParams), s.commandRead e index = true →
    let g : GenNo := Fin.ofNat 4 p.generator.toNat
    let i : Instr := .setGenerator e seq p
    let source : RefSource := match p.source.toNat with
      | 0 => .oscA
      | 1 => .oscB
      | 2 => .ref0
      | _ => .ref1
    let frequency := match p.source.toNat with
      | 0 => 24576000
      | 1 => 22579200
      | _ => p.frequency.toNat
    let refusal : Option Status :=
      if 3 < p.generator.toNat then some .badParam
      else if (s.generator g).state ≠ .off then some .badState
      else if 3 < p.source.toNat ∨ p.divider.toNat = 0
          ∨ (2 ≤ p.source.toNat ∧ (p.frequency.toNat < 1000 ∨ 50000000 < p.frequency.toNat))
          ∨ p.lossWindow.toNat = 0
          ∨ frequency < 1000 * p.divider.toNat ∨ 384000 * p.divider.toNat < frequency then some .badParam
      else none
    let configured := s.putGenerator g { s.generator g with
      source := source
      frequency := frequency
      divider := p.divider.toNat
      lossWindow := p.lossWindow.toNat }
    ∃ t, exec i s = .next t
      ∧ (∀ status ∈ refusal, (s.answered e i seq index status [] .nobody).grantsTo t)
      ∧ (refusal = none → (configured.answered e i seq index .ok [] .nobody).grantsTo t)

/-- ENABLE_GENERATOR: the checks in the order of R126, and an OFF generator that enters RUNNING at position 0 with no
edge counted and its monitor armed for an external reference (R126, R77, R82). -/
def Obligations.EnableGeneratorRuns : Prop :=
  ∀ (s : State) (e : TransferId) (seq : BitVec 16) (index : Nat) (number : BitVec 8), s.commandRead e index = true →
    let g : GenNo := Fin.ofNat 4 number.toNat
    let x := s.generator g
    let i : Instr := .enableGenerator e seq number
    let refusal : Option Status :=
      if 3 < number.toNat then some .badParam
      else if x.state ≠ .off then some .badState
      else if ∃ r ∈ s.timebase.lostReports, r.generator = g then some .busy
      else none
    let running := s.putGenerator g { x with
      state := .running
      position := 0
      edges := 0
      monitor := if x.source = .ref0 ∨ x.source = .ref1 then some x.lossWindow else none }
    ∃ t, exec i s = .next t
      ∧ (∀ status ∈ refusal, (s.answered e i seq index status [] .nobody).grantsTo t)
      ∧ (refusal = none → (running.answered e i seq index .ok [] .nobody).grantsTo t)

/-- DISABLE_GENERATOR: the checks in the order of R127; the generator enters OFF with its position held, which the
result carries, and the lanes of its bound streams go quiet (R127, R78, R72). -/
def Obligations.DisableGeneratorHolds : Prop :=
  ∀ (s : State) (e : TransferId) (seq : BitVec 16) (index : Nat) (number : BitVec 8), s.commandRead e index = true →
    let g : GenNo := Fin.ofNat 4 number.toNat
    let x := s.generator g
    let i : Instr := .disableGenerator e seq number
    let refusal : Option Status :=
      if 3 < number.toNat then some .badParam
      else if x.state = .off then some .badState
      else if ∃ n, (s.stream n).generator = g ∧ ((s.stream n).state = .armed ∨ (s.stream n).state = .running
          ∨ (s.stream n).state = .starved ∨ (s.stream n).state = .draining ∨ (s.stream n).state = .stopping)
        then some .busy
      else none
    let off : State := { s.putGenerator g { x with state := .off, monitor := none } with
      ports := Vector.ofFn (fun n => if (s.stream n).generator = g then quietPort else s.port n) }
    ∃ t, exec i s = .next t
      ∧ (∀ status ∈ refusal, (s.answered e i seq index status [] .nobody).grantsTo t)
      ∧ (refusal = none → (off.answered e i seq index .ok (leBytes 8 x.position.toNat) .nobody).grantsTo t)

/-- OPEN_STREAM: the checks in the order of R128, and the context in IDLE that R8 gives (R128, R8, R2, R3). -/
def Obligations.OpenStreamInitialises : Prop :=
  ∀ (s : State) (e : TransferId) (seq : BitVec 16) (index : Nat) (p : OpenParams), s.commandRead e index = true →
    let n : StreamNo := Fin.ofNat 8 p.stream.toNat
    let opened : Stream := { closedStream with
      state := .idle
      direction := if p.direction.toNat = 0 then .output else .capture
      generator := Fin.ofNat 4 p.generator.toNat
      slots := p.slots.toNat
      width := p.width.toNat
      idleLevel := if p.idleLevel.toNat = 0 then .low else .high
      changeEdge := if p.changeEdge.toNat = 0 then .rising else .falling
      syncForm := if p.syncForm.toNat = 0 then .pulse else .level
      policy := if p.policy.toNat = 0 then .silence else if p.policy.toNat = 1 then .repeatFrame else .halt
      ringBase := p.base
      ringSize := p.size.toNat
      producer := p.start.toNat
      consumer := p.start.toNat
      lastFrame := List.replicate (p.slots.toNat * p.width.toNat / 8) 0 }
    (7 < p.stream.toNat → ∃ t, exec (.openStream e seq p) s = .next t
      ∧ (s.answered e (.openStream e seq p) seq index .badParam [] .nobody).grantsTo t)
    ∧ (p.stream.toNat ≤ 7 → (s.stream n).state ≠ .closed → ∃ t, exec (.openStream e seq p) s = .next t
      ∧ (s.answered e (.openStream e seq p) seq index .badState [] .nobody).grantsTo t)
    ∧ (p.stream.toNat ≤ 7 → (s.stream n).state = .closed → ¬OpenParamsInRange p →
      ∃ t, exec (.openStream e seq p) s = .next t
        ∧ (s.answered e (.openStream e seq p) seq index .badParam [] .nobody).grantsTo t)
    ∧ (p.stream.toNat ≤ 7 → (s.stream n).state = .closed → (s.stream n).reportConsistent = true → OpenParamsInRange p →
      ∃ t, exec (.openStream e seq p) s = .next t
        ∧ ((s.putStream n opened).answered e (.openStream e seq p) seq index .ok [] .nobody).grantsTo t)

/-- CLOSE_STREAM: refused with BAD_PARAM or BAD_STATE by R129; a stream with nothing staged, in flight or to report
reaches CLOSED at the execution, its lane goes quiet and the command is answered OK; any other IDLE or FAULTED stream
is in STOPPING with destination CLOSED, its FIFO emptied and its data reads marked for discard, and the command waits
for it; the CMD_DONE is produced only with the stream CLOSED (R129, R21, R18, R66). -/
def Obligations.CloseStreamCloses : Prop :=
  ∀ (s : State) (e : TransferId) (seq : BitVec 16) (index : Nat) (number : BitVec 8), s.commandRead e index = true →
    let n : StreamNo := Fin.ofNat 8 number.toNat
    let c := s.stream n
    let i : Instr := .closeStream e seq number
    let answer : Event := .cmdDone seq index .ok (List.replicate 16 0)
    (7 < number.toNat → ∃ t, exec i s = .next t
      ∧ (s.answered e i seq index .badParam [] .nobody).grantsTo t)
    ∧ (number.toNat ≤ 7 → c.state ≠ .idle → c.state ≠ .faulted → ∃ t, exec i s = .next t
      ∧ (s.answered e i seq index .badState [] .nobody).grantsTo t)
    ∧ (number.toNat ≤ 7 → c.state = .idle ∨ c.state = .faulted → c.reportConsistent = true →
      ∃ t, exec i s = .next t
        ∧ (closedStream.grantsTo (t.stream n) ∧ t.port n = quietPort ∧ t.command.phase ≠ .completing
            ∧ (t.heldEvents.getLast? = some answer ∨ t.command.slot = some answer)
          ∨ (t.stream n).state = .stopping ∧ (t.stream n).destination = some .closed
            ∧ (t.stream n).consumer = c.consumer
            ∧ (c.direction = .output → (t.stream n).fifo = [])
            ∧ (c.direction = .capture → ∀ p ∈ (t.stream n).fifo, p.writes ≠ 0)
            ∧ t.command.phase = .completing ∧ t.command.inProgress = some ⟨i, index, seq, [], .nobody⟩
            ∧ t.command.streamWait = streamBit n ∧ t.command.entryWait = [])
        ∧ s.readsDiscarded t (some e) n
        ∧ s.agreesInControl t ∧ t.timebase = s.timebase
        ∧ s.agreesBeyond t (some e) (fun m => m = n) (fun m => m = n))
    ∧ (number.toNat ≤ 7 → c.state = .idle ∨ c.state = .faulted → c.staging = [] → c.pendingReport = none →
      c.faultOwed = none → c.stopOwed = none → s.noTransfers n = true →
      let closed : State := { (s.putStream n closedStream).putPort n quietPort with
        command := { s.command with streamWait := 0, entryWait := [] } }
      ∃ t, exec i s = .next t ∧ (closed.answered e i seq index .ok [] .nobody).grantsTo t)

/-- A START or a STOP that fails a check of its table is refused with the status of the first that fails, and changes
nothing else. A run that END or a drain has ended is BUSY from its retirement on (log 7) (R130, R132, R121). -/
def Obligations.StartStopRefusedInOrder : Prop :=
  ∀ (s : State) (e : TransferId) (seq : BitVec 16) (index : Nat) (p : ScheduleParams) (status : Status),
    s.commandRead e index = true →
    (s.startRefusal p = some status →
      ∀ i, i = Instr.startNext e seq p ∨ i = Instr.startAt e seq p ∨ i = Instr.startTrigger e seq p →
      ∃ t, exec i s = .next t ∧ (s.answered e i seq index status [] .nobody).grantsTo t)
    ∧ (s.stopRefusal p = some status →
      ∀ i, i = Instr.stopNow e seq p ∨ i = Instr.stopAt e seq p ∨ i = Instr.stopTrigger e seq p
        ∨ i = Instr.stopDrain e seq p →
      ∃ t, exec i s = .next t ∧ (s.answered e i seq index status [] .nobody).grantsTo t)

/-- A START, or a STOP with AT or TRIGGER, that passes every check creates a WAITING entry under an id that no entry
holds, the counter's value when that is free, with the fire position and late flag of R97 and R98, and is answered
PENDING; START arms the named streams, and those that STOP names keep their states (R131, R135, R9, R95, R96, R97). -/
def Obligations.StartStopCreateEntry : Prop :=
  ∀ (s : State) (e : TransferId) (seq : BitVec 16) (index : Nat) (p : ScheduleParams) (i : Instr) (kind : EntryKind),
    s.commandRead e index = true →
    (kind = .start ∧ s.startRefusal p = none
        ∧ (i = .startNext e seq p ∨ i = .startAt e seq p ∨ i = .startTrigger e seq p)
      ∨ kind = .stop ∧ s.stopRefusal p = none ∧ (p.condition = condAt ∨ p.condition = condTrigger)
        ∧ (i = .stopAt e seq p ∨ i = .stopTrigger e seq p)) →
    ∃ t id, exec i s = .next t ∧ (∀ x ∈ s.schedule.entries, x.id ≠ id)
      ∧ ((∀ x ∈ s.schedule.entries, x.id ≠ s.schedule.idCounter) → id = s.schedule.idCounter)
      ∧ (s.created e kind id i seq index p).grantsTo t

/-- A STOP DRAIN that passes its checks: DRAINING, the drain limit the producer index, answered PENDING with the limit
and the consumer index. With nothing left to drain the CMD_DONE enters the list first and the STOP_DONE with reason
DRAIN directly behind it; without room for the CMD_DONE the STOP_DONE is held and the stream stays DRAINING (R136,
R14, R15, R137). -/
def Obligations.StopDrainBeginsDrain : Prop :=
  ∀ (s : State) (e : TransferId) (seq : BitVec 16) (index : Nat) (p : ScheduleParams) (n : StreamNo),
    s.commandRead e index = true → s.stopRefusal p = none → p.condition = condDrain → p.streams = streamBit n →
    s.isSettled n = true → (s.stream n).reportConsistent = true →
    let c := s.stream n
    let i : Instr := .stopDrain e seq p
    let result := leBytes 2 c.producer ++ leBytes 2 c.consumer
    let stopDone : Event := .streamStopDone n c.generator .drain c.finalPosition
    let answer : Event := .cmdDone seq index .pending (padTo 16 result)
    let draining := s.putStream n { c with
      state := .draining
      drainLimit := some c.producer
      drainAnswered := s.roomFor commandProducer }
    (c.staging ≠ [] ∨ c.consumer ≠ c.producer →
      ∃ t, exec i s = .next t ∧ (draining.answered e i seq index .pending result (.drain n)).grantsTo t)
    ∧ (c.staging = [] → c.consumer = c.producer → c.pendingReport = none → (∀ q, s.waits q = false) →
      ∃ t, exec i s = .next t
        ∧ (s.events.holding.length + 2 ≤ Config.holdingPlaces →
          t.heldEvents = s.heldEvents ++ [answer, stopDone] ∧ (t.stream n).state = .idle)
        ∧ (Config.holdingPlaces ≤ s.events.holding.length →
          t.heldEvents = s.heldEvents ∧ t.command.slot = some answer ∧ (t.stream n).state = .draining
            ∧ (t.stream n).pendingReport = some ⟨stopDone, true⟩ ∧ t.waits (streamProducer n) = false)
        ∧ s.agreesInControl t ∧ t.timebase = s.timebase
        ∧ s.agreesBeyond t (some e) (fun m => m = n) (fun _ => False))

/-- A STOP NOW that passes its checks disarms each named ARMED stream, stops each named running or FAULTED one with
its run fields frozen, its FIFO emptied and its data reads marked for discard, and leaves every other stream alone.
While a stopped stream is STOPPING, or the ENTRY_CLEARED of an entry it emptied is not placed, the command is in
COMPLETING and waits for exactly these, and for no other entry; once both wait sets are empty the CMD_DONE OK with the stopped and the
disarmed set follows (R133, R134, R11, R16, R20, R66, R105). -/
def Obligations.StopNowStops : Prop :=
  ∀ (s : State) (e : TransferId) (seq : BitVec 16) (index : Nat) (p : ScheduleParams),
    s.commandRead e index = true → s.stopRefusal p = none → p.condition = condNow →
    (∀ n, (s.stream n).reportConsistent = true) → s.scheduleConsistent = true →
    let named (n : StreamNo) : Bool := p.streams.getLsbD n.val
    let isStopped (n : StreamNo) : Bool := named n && (s.stream n).state != .armed
    let stopped := setOf (Config.streams.filter isStopped)
    let disarmed := setOf (Config.streams.filter (fun n => named n && (s.stream n).state == .armed))
    let result := leBytes 1 stopped.toNat ++ leBytes 1 disarmed.toNat
    let answer : Event := .cmdDone seq index .ok (padTo 16 result)
    let emptied (x : ScheduleEntry) : Prop := (x.state = .waiting ∨ x.state = .firing ∧ x.answered = 0) ∧ x.streams ≠ 0
      ∧ ∀ n : StreamNo, x.streams.getLsbD n.val = true → named n = true ∧ (s.stream n).scheduleEntry = some x.id
    ∃ t, exec (.stopNow e seq p) s = .next t
      ∧ (∀ n : StreamNo, named n = true → (s.stream n).state = .armed →
        ({ s.stream n with
          state := .idle, scheduleEntry := none, drainAnswered := false } : Stream).grantsTo (t.stream n))
      ∧ (∀ n : StreamNo, isStopped n = true →
        ((t.stream n).state = .stopping ∧ (t.stream n).destination = some .idle
            ∧ (t.stream n).stopOrigin = some .command
            ∧ ((s.stream n).direction = .output → (t.stream n).fifo = [])
            ∧ ((s.stream n).direction = .capture → ∀ q ∈ (t.stream n).fifo, q.writes ≠ 0)
          ∨ (t.stream n).state = .idle)
        ∧ s.readsDiscarded t (some e) n
        ∧ (s.stream n).sameRun (t.stream n) ∧ (t.stream n).scheduleEntry = none ∧ (t.stream n).drainLimit = none)
      ∧ (t.command.phase = .completing
          ∧ t.command.inProgress = some ⟨.stopNow e seq p, index, seq, result, .nobody⟩
          ∧ (t.command.streamWait ≠ 0 ∨ t.command.entryWait ≠ [])
          ∧ (∀ n : StreamNo, t.command.streamWait.getLsbD n.val = true
            ↔ isStopped n = true ∧ (t.stream n).state = .stopping)
          ∧ (∀ x ∈ s.schedule.entries, emptied x →
            (x.id ∈ t.command.entryWait ↔ ∃ y ∈ t.schedule.entries, y.id = x.id))
          ∧ (∀ id ∈ t.command.entryWait, ∃ x ∈ s.schedule.entries, emptied x ∧ x.id = id)
        ∨ t.command.phase ≠ .completing
          ∧ (t.heldEvents.getLast? = some answer ∨ t.command.slot = some answer)
          ∧ (∀ n : StreamNo, isStopped n = true → (t.stream n).state = .idle)
          ∧ (∀ x ∈ s.schedule.entries, emptied x → ∀ y ∈ t.schedule.entries, y.id ≠ x.id))
      ∧ s.agreesInControl t ∧ t.timebase = s.timebase
      ∧ s.agreesBeyond t (some e) (fun n => p.streams.getLsbD n.val = true) (fun n => isStopped n = true)

/-- CANCEL of an id that no WAITING entry holds is refused with BAD_PARAM; CANCEL of a WAITING entry decides its
ENTRY_CLEARED with reason CANCELLED, returns the ARMED streams of a START entry to IDLE and frees the others of it.
While the ENTRY_CLEARED is not placed the command waits for the entry; once it is, the entry is gone and the CMD_DONE
OK with the id, the kind and the set follows it (R138, R106, R11, R105). -/
def Obligations.CancelClearsEntry : Prop :=
  ∀ (s : State) (e : TransferId) (seq : BitVec 16) (index : Nat) (target : EntryId), s.commandRead e index = true →
    let i : Instr := .cancel e seq target
    let result (x : ScheduleEntry) : List Byte :=
      leBytes 1 target.toNat ++ leBytes 1 (entryKindCode x.kind) ++ leBytes 1 x.streams.toNat
    let returned (x : ScheduleEntry) (n : StreamNo) : Stream :=
      let c := s.stream n
      if x.streams.getLsbD n.val ∧ c.scheduleEntry = some target then
        if x.kind = .stop then { c with scheduleEntry := none }
        else if c.state = .armed then { c with state := .idle, scheduleEntry := none, drainAnswered := false }
        else c
      else c
    ((s.entry? target).all (fun x => x.state != .waiting) = true → ∃ t, exec i s = .next t
      ∧ (s.answered e i seq index .badParam [] .nobody).grantsTo t)
    ∧ (∀ x, s.entry? target = some x → x.state = .waiting → s.scheduleConsistent = true →
      ∃ t, exec i s = .next t
        ∧ (t.command.phase = .completing
            ∧ t.command.inProgress = some ⟨i, index, seq, result x, .nobody⟩ ∧ t.command.entryWait = [target]
            ∧ (∃ y ∈ t.schedule.entries, y.id = target ∧ y.state = .clearedUnreported
              ∧ y.closing = some (.entryCleared target x.kind .cancelled))
          ∨ t.command.phase ≠ .completing ∧ (∀ y ∈ t.schedule.entries, y.id ≠ target)
            ∧ .entryCleared target x.kind .cancelled ∈ t.heldEvents
            ∧ (t.heldEvents.getLast? = some (.cmdDone seq index .ok (padTo 16 (result x)))
              ∨ t.command.slot = some (.cmdDone seq index .ok (padTo 16 (result x)))))
        ∧ (∀ n : StreamNo, (returned x n).grantsTo (t.stream n))
        ∧ s.agreesInControl t ∧ t.timebase = s.timebase ∧ t.ports = s.ports
        ∧ s.agreesBeyond t (some e) (fun n => x.streams.getLsbD n.val = true) (fun _ => False))

/-- SET_TRIGGER: the checks in the order of R139; the line takes the selection and the report flag and keeps its
missed count (R139). -/
def Obligations.SetTriggerSelects : Prop :=
  ∀ (s : State) (e : TransferId) (seq : BitVec 16) (index : Nat) (line selection report : BitVec 8),
    s.commandRead e index = true →
    let l : LineNo := Fin.ofNat 4 line.toNat
    let i : Instr := .setTrigger e seq line selection report
    let refusal : Option Status :=
      if 3 < line.toNat then some .badParam
      else if 3 < selection.toNat ∨ 1 < report.toNat then some .badParam
      else if selection.toNat = 0 ∧ ∃ x ∈ s.schedule.entries, x.condition = .trigger l ∧ x.state = .waiting
        then some .busy
      else none
    let selected := s.putLine l { s.line l with
      selection := match selection.toNat with
        | 0 => .noEdge
        | 1 => .rising
        | 2 => .falling
        | _ => .both
      report := decide (report.toNat = 1) }
    ∃ t, exec i s = .next t
      ∧ (∀ status ∈ refusal, (s.answered e i seq index status [] .nobody).grantsTo t)
      ∧ (refusal = none → (selected.answered e i seq index .ok [] .nobody).grantsTo t)

/-- QUERY changes no state: it is refused with BAD_PARAM for a target kind, number or page out of range, and otherwise
answered OK with the page, all zero for a CLOSED stream (R140, R141, R142). -/
def Obligations.QueryReadsPage : Prop :=
  ∀ (s : State) (e : TransferId) (seq : BitVec 16) (index : Nat) (kind number page : BitVec 8),
    s.commandRead e index = true →
    let i : Instr := .query e seq kind number page
    let n : StreamNo := Fin.ofNat 8 number.toNat
    let g : GenNo := Fin.ofNat 4 number.toNat
    let c := s.stream n
    (kind.toNat = 0 → number.toNat ≤ 7 → page.toNat ≤ 3 → ∃ t, exec i s = .next t
      ∧ (s.answered e i seq index .ok
          (if c.state = .closed then []
            else match page.toNat with
              | 0 => statePage c
              | 1 => leBytes 8 (positionCode c.startPosition) ++ leBytes 8 (s.generator c.generator).position.toNat
              | 2 => leBytes 8 c.dataFrames.toNat ++ leBytes 8 c.gapFrames.toNat
              | _ => leBytes 8 c.starvedFrames.toNat ++ leBytes 8 c.starveRun.toNat) .nobody).grantsTo t)
    ∧ (kind.toNat = 1 → number.toNat ≤ 3 → page.toNat ≤ 1 → ∃ t, exec i s = .next t
      ∧ (s.answered e i seq index .ok
          (if page.toNat = 0 then
              configPage (s.generator g) (decide (∃ r ∈ s.timebase.lostReports, r.generator = g))
                (setOf (Config.streams.filter (fun m => (s.stream m).generator == g && (s.stream m).state != .closed)))
            else positionPage (s.generator g)) .nobody).grantsTo t)
    ∧ ((1 < kind.toNat ∨ (kind.toNat = 0 ∧ (7 < number.toNat ∨ 3 < page.toNat))
        ∨ (kind.toNat = 1 ∧ (3 < number.toNat ∨ 1 < page.toNat))) → ∃ t, exec i s = .next t
      ∧ (s.answered e i seq index .badParam [] .nobody).grantsTo t)

/-! ### Records and transfers of a stream (chapters 2 and 3) -/

/-- A record is checked when it is taken in the order of R28, and the reason of the first check that fails is its
invalid reason (R28). -/
def Obligations.RecordValidationOrder : Prop :=
  ∀ (c : Stream) (r : StreamRecord), c.width = 16 ∨ c.width = 32 →
    let data := r.kind.toNat = 1
    let gap := r.kind.toNat = 2
    let reason : Option RejectReason :=
      if ¬data ∧ ¬gap then some .unknownKind
      else if r.flags.getLsbD 3 ∨ r.flags.getLsbD 4 ∨ r.flags.getLsbD 5 ∨ r.flags.getLsbD 6 ∨ r.flags.getLsbD 7 then
        some .reservedFlags
      else if r.frameCount.toNat = 0 then some .zeroLength
      else if data ∧ c.direction = .capture ∧ r.repeatCount.toNat ≠ 0 then some .repeatOnCapture
      else if data ∧ ((c.width = 16 ∧ ¬2 ∣ r.address.toNat) ∨ (c.width = 32 ∧ ¬4 ∣ r.address.toNat)) then some .alignment
      else if data ∧ 2 ^ 64 ≤ r.address.toNat + r.frameCount.toNat * c.frameSize - 1 then some .addressWrap
      else none
    ∃ staged, (c.takeRecord r).staging = c.staging ++ [staged] ∧ staged.record = r ∧ staged.invalid = reason

/-- A record read that completes OK in a taking state, other than at the drain limit, takes the record: the consumer
index advances and the record stands at the tail of the staging list. An invalid one that is then the head retires
REJECTED when the pending report is empty, its BUFFER_DONE accepted or waiting there; behind other records, or behind
a waiting report, it only stands in its place. Elsewhere nothing is taken or staged (R31, R3, R29, R30, R41, R45). -/
def Obligations.RecordReadTakes : Prop :=
  ∀ (s : State) (e : TransferId) (t : Transfer) (n : StreamNo) (r : StreamRecord), s.arrives e t = true →
    t.requester = .streamRecord n → s.isSettled n = true → s.owesNoAnswer = true →
    let c := s.stream n
    let taken : Prop := c.isTaking = true ∧ ¬(c.state = .draining ∧ c.drainLimit = some c.consumer)
    let rejected (reason : RejectReason) : Event := .bufferDone n r.tag c.consumer .rejected (some reason) 0 none false
    ∃ u, exec (.recordReadComplete e r) s = .next u
      ∧ (taken → (u.stream n).consumer = (c.consumer + 1) % c.ringSize ∧ c.sameRun (u.stream n))
      ∧ (taken → (validate c r = none ∨ c.staging ≠ [] ∨ c.pendingReport ≠ none) →
        (c.takeRecord r).grantsTo (u.stream n) ∧ u.heldEvents = s.heldEvents)
      ∧ (taken → ∀ reason, validate c r = some reason → c.staging = [] → c.pendingReport = none →
        (s.roomFor (streamProducer n) = true →
          (∃ more, u.heldEvents = s.heldEvents ++ rejected reason :: more) ∧ (u.stream n).staging = [])
        ∧ (s.roomFor (streamProducer n) = false →
          u.heldEvents = s.heldEvents ∧ (u.stream n).pendingReport = some ⟨rejected reason, false⟩
            ∧ (u.stream n).staging.map (fun x => (x.record, x.ringIndex, x.invalid, x.retired))
              = [(r, c.consumer, some reason, some .rejected)]))
      ∧ (¬taken → c.isTaking = true → c.grantsTo (u.stream n) ∧ u.heldEvents = s.heldEvents)
      ∧ (¬taken → c.isTaking = false → ((u.stream n).consumer = c.consumer ∧ c.sameRun (u.stream n)
          ∨ (u.stream n).state = .closed)
        ∧ (u.stream n).staging.map (fun x => (x.ringIndex, x.record)) <:+ c.staging.map (fun x => (x.ringIndex, x.record)))
      ∧ s.agreesInControl u ∧ u.timebase = s.timebase
      ∧ s.agreesBeyond u (some e) (fun m => m = n) (fun _ => False)

/-- A data read that completes OK frees its entry and fills the bytes it carries into the frames they belong to, and
changes no other byte of the FIFO. One marked for discard, as the entry to STOPPING or FAULTED marks it, fills
nothing: it only ends, its record's transfers outstanding one lower and no frame counted (R18, R55, R66, R67). -/
def Obligations.DataReadFills : Prop :=
  ∀ (s : State) (e : TransferId) (t : Transfer) (n : StreamNo) (ring pass offset : Nat) (data : List Byte),
    s.arrives e t = true → t.requester = .streamData n → t.isWrite = false → t.item = .frames ring pass offset →
    data.length = t.length → (s.stream n).direction = .output →
    let c := s.stream n
    ∃ u, exec (.dataReadComplete e data) s = .next u
      ∧ (t.discard = false → c.isTaking = true → ∀ k, k < c.fifo.length → ∀ p ∈ c.fifo[k]?,
        ∃ q ∈ (u.stream n).fifo[k]?, q.ring = p.ring ∧ q.pass = p.pass ∧ q.frame = p.frame ∧ q.gap = p.gap
          ∧ q.bytes.length = p.bytes.length
          ∧ ∀ j, j < c.frameSize → q.bytes[j]? =
            if p.ring = ring ∧ p.pass = pass ∧ p.gap = false ∧ j < p.bytes.length
                ∧ offset ≤ p.frame * c.frameSize + j ∧ p.frame * c.frameSize + j < offset + t.length then
              some (data[p.frame * c.frameSize + j - offset]?)
            else p.bytes[j]?)
      ∧ (t.discard = true → c.isTaking = true → c.fifo <+: (u.stream n).fifo)
      ∧ (t.discard = true → c.reportConsistent = true → c.state = .stopping ∨ c.state = .faulted →
        (u.stream n).state = .closed
        ∨ (u.stream n).fifo = c.fifo ∧ (u.stream n).lastFrame = c.lastFrame ∧ c.sameRun (u.stream n)
          ∧ (u.stream n).consumer = c.consumer
          ∧ ((u.stream n).state = c.state ∨ c.state = .stopping ∧ (u.stream n).state = .idle)
          ∧ ∀ r ∈ (u.stream n).staging, ∃ r₀ ∈ c.staging, r.ringIndex = r₀.ringIndex ∧ r.record = r₀.record
            ∧ r.moved = r₀.moved ∧ r.failed = r₀.failed ∧ r.finished = r₀.finished
            ∧ r.outstanding = r₀.outstanding - (if r₀.ringIndex = ring then 1 else 0))
      ∧ (c.isTaking = true → c.sameRun (u.stream n))
      ∧ s.agreesInControl u ∧ u.timebase = s.timebase
      ∧ s.agreesBeyond u (some e) (fun m => m = n) (fun _ => False)

/-- A data write that completes OK frees each place whose every byte has been issued and is in no outstanding write,
and counts as moved each freed frame written whole; the other places keep what is left to write. A record whose every
frame is then assigned and moved is finished, and at the head of the list it retires DONE, its BUFFER_DONE accepted or
waiting in the pending report (R37, R39, R40, R41, R62). -/
def Obligations.DataWriteFrees : Prop :=
  ∀ (s : State) (e : TransferId) (t : Transfer) (n : StreamNo) (ring pass offset : Nat),
    s.arrives e t = true → t.requester = .streamData n → t.isWrite = true → t.item = .frames ring pass offset →
    (s.stream n).direction = .capture →
    let c := s.stream n
    let bytesOf (p : Place) : Nat :=
      if p.ring = ring then
        min ((p.frame + 1) * c.frameSize) (offset + t.length) - max (p.frame * c.frameSize) offset
      else 0
    let after (p : Place) : Place :=
      if bytesOf p = 0 then p else { p with writes := p.writes - 1, written := p.written + bytesOf p }
    let freed (p : Place) : Bool :=
      0 < bytesOf p && (after p).writes == 0 && (p.issued == c.frameSize || p.givenUp)
    let counted := (c.fifo.filter (fun p => freed p && !p.givenUp && (after p).written == c.frameSize)).length
    let complete (r₀ : StagedRecord) : Bool :=
      r₀.progress == r₀.record.frameCount.toNat && r₀.moved + counted == r₀.record.frameCount.toNat
    ∃ u, exec (.dataWriteComplete e) s = .next u
      ∧ ((u.stream n).state = .closed
        ∨ (u.stream n).fifo.map Place.apartFromGrants
            = ((c.fifo.filter (fun p => !freed p)).map after).map Place.apartFromGrants
          ∧ ∀ r ∈ (u.stream n).staging, ∃ r₀ ∈ c.staging, r₀.ringIndex = r.ringIndex ∧ r₀.record = r.record
            ∧ r.moved = r₀.moved + (if r.ringIndex = ring then counted else 0)
            ∧ r.finished = (r₀.finished || r.ringIndex == ring && complete r₀))
      ∧ (c.isTaking = true → c.pendingReport = none → c.faultOwed = none → ∀ r₀ ∈ c.staging.head?, r₀.ringIndex = ring →
        r₀.invalid = none → r₀.retired = none → r₀.outstanding = 1 → complete r₀ = true →
        let done : Event := .bufferDone n r₀.record.tag ring .done none r₀.record.frameCount.toNat r₀.firstPosition
          r₀.record.quietFlag
        done ∈ u.heldEvents ∨ (u.stream n).pendingReport = some ⟨done, false⟩)
      ∧ s.agreesInControl u ∧ u.timebase = s.timebase
      ∧ s.agreesBeyond u (some e) (fun m => m = n) (fun _ => False)

/-- A transfer of a stream that completes with ERROR puts its address in Fault Address and, in a taking state, faults
the stream with the cause of the access: an OUTPUT FIFO is empty and its other data reads are marked for discard, a
capture FIFO keeps only frames in outstanding writes, the record served is marked, the schedule entry is handed a
removal claim, and STREAM_FAULT with the position of the generator is held, waits or is owed. In STOPPING and FAULTED
the stream does not fault. The fault in run flag is clear from the retirement that ends a run on, which is read from
R64 by log 7 (R19, R17, R33, R56, R62, R66, R104, R180). -/
def Obligations.AccessErrorFaults : Prop :=
  ∀ (s : State) (e : TransferId) (t : Transfer) (n : StreamNo) (i : Instr) (cause : FaultCause), s.arrives e t = true →
    (s.stream n).reportConsistent = true →
    (t.requester = .streamRecord n ∧ i = .recordReadError e ∧ cause = .ringAccess
        ∨ t.requester = .streamData n ∧ t.isWrite = false ∧ i = .dataReadError e ∧ cause = .dataAccess
        ∨ t.requester = .streamData n ∧ t.isWrite = true ∧ i = .dataWriteError e ∧ cause = .dataAccess) →
    let c := s.stream n
    let position := (s.generator c.generator).position
    ∃ u, exec i s = .next u ∧ u.transfers.faultAddress = t.address
      ∧ (c.isTaking = true →
        (u.stream n).state = .faulted ∧ (u.stream n).faultCause = some cause
          ∧ (u.stream n).faultInRun = (c.isRunning && !c.inTail)
          ∧ (u.stream n).consumer = c.consumer ∧ (u.stream n).drainLimit = none ∧ (u.stream n).scheduleEntry = none
          ∧ c.sameRun (u.stream n)
          ∧ (c.direction = .output → (u.stream n).fifo = [])
          ∧ (c.direction = .capture → ∀ p ∈ (u.stream n).fifo, p.writes ≠ 0)
          ∧ s.readsDiscarded u (some e) n
          ∧ (∀ r ∈ (u.stream n).staging, t.requester = .streamData n →
            (match t.item with
              | .frames ring _ _ => r.ringIndex == ring
              | _ => false) = true → r.failed = true)
          ∧ (.streamFault n cause position ∈ u.heldEvents
            ∨ (u.stream n).pendingReport = some ⟨.streamFault n cause position, false⟩
            ∨ (u.stream n).faultOwed = some (cause, position))
          ∧ u.schedule.removals
            = s.schedule.removals ++ (match c.scheduleEntry with
              | none => []
              | some id => [⟨id, n, .streamsLeft⟩]))
      ∧ (c.isTaking = false →
        ((u.stream n).state = c.state ∨ c.state = .stopping ∧ ((u.stream n).state = .idle ∨ (u.stream n).state = .closed))
          ∧ u.schedule.removals = s.schedule.removals)
      ∧ u.engine = s.engine ∧ u.timebase = s.timebase
      ∧ s.agreesBeyond u (some e) (fun m => m = n) (fun m => m = n ∧ c.isTaking = true)

/-- What a stream does next while its pending report is empty, in this order: the STREAM_FAULT it owes, the
BUFFER_DONE of a head record that retires with the status of R45 and R47, the STOP_DONE of an ended run, the
completion of a drain, and the end of STOPPING. A report is accepted when there is room and otherwise waits in the
pending report, its retired record still the head; a STOP_DONE of a drain is held until the drain's CMD_DONE is
placed. STOPPING ends in CLOSED, in IDLE without a report of its own where an entry or the waiting STOP_DONE reports
the stop, and else with STOP_DONE COMMAND, its final position 0 for a stream that entered from FAULTED with its fault
in run flag clear; the stream is IDLE once that is accepted. A report that waits lets nothing follow (R13, R15, R18,
R40, R41, R43, R45, R46, R47, R64, R137, R203). -/
def Obligations.ReportsInOrder : Prop :=
  ∀ (s : State) (n : StreamNo),
    let c := s.stream n
    let halting := c.state = .stopping ∨ c.state = .faulted
    let status (r : StagedRecord) : Option RetiredStatus :=
      if r.outstanding ≠ 0 ∨ r.retired ≠ none ∨ c.state = .closed then none
      else if halting ∧ s.noTransfers n = false then none
      else if r.invalid ≠ none then some .rejected
      else if r.finished = true then some .done
      else if ¬halting then none
      else if r.failed = true then some .aborted
      else some .flushed
    let report (r : StagedRecord) (st : RetiredStatus) : Event :=
      if st = .rejected then .bufferDone n r.record.tag r.ringIndex .rejected r.invalid 0 none false
      else .bufferDone n r.record.tag r.ringIndex st none r.moved r.firstPosition r.record.quietFlag
    let room := s.roomFor (streamProducer n)
    let produced (u : State) (ev : Event) (drainRun accepted : Bool) : Prop :=
      if accepted then u.heldEvents = s.heldEvents ++ [ev] ∧ (u.stream n).pendingReport = none
      else u.heldEvents = s.heldEvents ∧ (u.stream n).pendingReport = some ⟨ev, drainRun⟩
    let arrived (u : State) : Prop := u.command.streamWait.getLsbD n.val = false
    let final := if c.stoppedFromFault && !c.faultInRun then 0 else c.finalPosition
    (c.pendingReport ≠ none → s.settleStep n = none)
    ∧ (c.pendingReport = none →
      (∀ fault ∈ c.faultOwed,
        ∃ u, s.settleStep n = some u ∧ produced u (.streamFault n fault.1 fault.2) false room
          ∧ (u.stream n).faultOwed = none ∧ (u.stream n).staging = c.staging ∧ (u.stream n).state = c.state)
      ∧ (c.faultOwed = none → ∀ r ∈ c.staging.head?, ∀ st ∈ status r,
        ∃ u, s.settleStep n = some u ∧ produced u (report r st) false room
          ∧ (u.stream n).staging = (if room then c.staging.tail else { r with retired := some st } :: c.staging.tail)
          ∧ (u.stream n).state = c.state
          ∧ (if r.invalid = none ∧ r.record.endFlag = true ∧ st = .done ∧ c.isRunning = true then
              (u.stream n).scheduleEntry = none
                ∧ (u.stream n).stopOwed = some ⟨.endRecord, c.state == .draining⟩
                ∧ u.schedule.removals = s.schedule.removals ++ (match c.scheduleEntry with
                  | none => []
                  | some id => [⟨id, n, .streamsLeft⟩])
            else (u.stream n).scheduleEntry = c.scheduleEntry ∧ (u.stream n).stopOwed = c.stopOwed
              ∧ u.schedule.removals = s.schedule.removals))
      ∧ (c.faultOwed = none → (∀ r ∈ c.staging.head?, status r = none) →
        (∀ o ∈ c.stopOwed,
          let accepted := room && (!o.drainRun || c.drainAnswered)
          ∃ u, s.settleStep n = some u
            ∧ produced u (.streamStopDone n c.generator o.reason c.finalPosition) o.drainRun accepted
            ∧ (u.stream n).stopOwed = none ∧ c.sameRun (u.stream n)
            ∧ (accepted = true → c.isRunning = true →
              (u.stream n).state = .idle ∧ (u.stream n).drainLimit = none ∧ arrived u)
            ∧ (accepted = false → (u.stream n).state = c.state))
        ∧ (c.stopOwed = none →
          if c.state = .draining ∧ c.staging = [] ∧ c.drainLimit = some c.consumer then
            s.settleStep n = some (s.putStream n { c with stopOwed := some ⟨.drain, true⟩ })
          else if c.state = .stopping ∧ c.staging = [] ∧ s.noTransfers n = true then
            ∃ u, s.settleStep n = some u ∧
              if c.destination = some .closed then
                u.stream n = closedStream ∧ u.port n = quietPort ∧ u.heldEvents = s.heldEvents ∧ arrived u
              else if c.stopOrigin = some .entry then
                (u.stream n).state = .idle ∧ c.sameRun (u.stream n) ∧ arrived u
                  ∧ s.heldEvents <+: u.heldEvents
                  ∧ (s.scheduleConsistent = true →
                    ∀ ev ∈ u.heldEvents.drop s.heldEvents.length, ev.isStopDone = false)
              else if c.stopReported = true then
                (u.stream n).state = .idle ∧ c.sameRun (u.stream n) ∧ arrived u ∧ u.heldEvents = s.heldEvents
              else
                produced u (.streamStopDone n c.generator .command final) false room ∧ c.sameRun (u.stream n)
                  ∧ (u.stream n).state = (if room then .idle else .stopping) ∧ (room = true → arrived u)
          else s.settleStep n = none)))

/-! ### Ticks (chapters 1, 3 and 4) -/

/-- A tick comes with the divider-th edge counted since the last tick or the enable: it raises the position of its
RUNNING generator by one, clears the edge count and restarts the monitor; it changes no other generator, no trigger
line and no stream or lane bound elsewhere. A stream of the generator that is IDLE, STOPPING, FAULTED or ARMED with no
entry that fires is unchanged and its lane carries the idle content; a CLOSED one stays as it is. A generator in OFF
or LOST, an engine that is not ACTIVE and, by logs 1 and 9, an edge at any other count produce no tick (R7, R71, R72,
R74, R76, R77, R79, R80, R81, R82). -/
def Obligations.TickAdvances : Prop :=
  ∀ (s : State) (g : GenNo) (lanes : List (List Bool)),
    let x := s.generator g
    (s.ticksNext g →
      ∃ t, exec (.tick g lanes) s = .next t
        ∧ t.timebase = (s.putGenerator g { x with
            position := x.position + 1
            edges := 0
            monitor := x.monitor.map (fun _ => x.lossWindow) }).timebase
        ∧ t.engine = s.engine ∧ t.pin = s.pin ∧ t.notifyError = s.notifyError ∧ t.pending = s.pending
        ∧ t.transfers.mode = s.transfers.mode ∧ t.transfers.faultAddress = s.transfers.faultAddress
        ∧ t.transfers.lead = s.transfers.lead ∧ t.claimChoices = s.claimChoices
        ∧ s.agreesBeyond t none (fun m => (s.stream m).generator = g) (fun m => (s.stream m).generator = g)
        ∧ ∀ n, (s.stream n).generator = g →
          let c := s.stream n
          (c.state = .closed → c.grantsTo (t.stream n) ∧ t.port n = s.port n)
          ∧ (c.state = .idle ∨ c.state = .stopping ∨ c.state = .faulted
              ∨ c.state = .armed ∧ s.notFiring n .start ∧ (∀ l ∈ s.streamLosses, l.generator ≠ g) →
            c.grantsTo (t.stream n)
              ∧ t.port n = s.periodOf n (if c.direction = .capture then [] else List.replicate c.frameSize 0)))
    ∧ (s.isActive = false ∨ x.state ≠ .running ∨ x.edges + 1 ≠ x.divider → exec (.tick g lanes) s = .next s)

/-- Each tick of a run raises exactly one of data frames, gap frames and starved frames by one, OUTPUT or CAPTURE, and
leaves the start position (R4, R12). -/
def Obligations.RunTickCounts : Prop :=
  ∀ (s : State) (n : StreamNo) (lanes : List (List Bool)), s.runsOn n →
    let c := s.stream n
    ∃ t, exec (.tick c.generator lanes) s = .next t ∧ (t.stream n).startPosition = c.startPosition
      ∧ (((t.stream n).dataFrames = c.dataFrames + 1 ∧ (t.stream n).gapFrames = c.gapFrames
            ∧ (t.stream n).starvedFrames = c.starvedFrames)
        ∨ ((t.stream n).dataFrames = c.dataFrames ∧ (t.stream n).gapFrames = c.gapFrames + 1
            ∧ (t.stream n).starvedFrames = c.starvedFrames)
        ∨ ((t.stream n).dataFrames = c.dataFrames ∧ (t.stream n).gapFrames = c.gapFrames
            ∧ (t.stream n).starvedFrames = c.starvedFrames + 1))

/-- An OUTPUT stream with a ready head frame: the frame passes the lane and leaves its place, is counted as data or
gap, becomes the last frame and ends a starve run, whose STARVE_END is held or, the list full, dropped and counted;
its record's first frame sets the first position and produces MARK when flagged. The frame that makes frames moved
equal to frame count × passes finishes the record, which at the head of the list retires DONE, its BUFFER_DONE
accepted or waiting (R57, R36, R38, R39, R40, R41, R63, R151). -/
def Obligations.OutputTickPasses : Prop :=
  ∀ (s : State) (n : StreamNo) (lanes : List (List Bool)) (p : Place) (rest : List Place), s.runsOn n →
    (s.stream n).inTail = false → (s.stream n).direction = .output → (s.stream n).fifo = p :: rest →
    (∀ b ∈ p.bytes, b ≠ none) →
    let c := s.stream n
    let position := (s.generator c.generator).position + 1
    let frame := p.bytes.map (fun b => b.getD 0)
    let total (r : StagedRecord) : Nat :=
      r.record.frameCount.toNat * (if r.record.kind = 1 then r.record.repeatCount.toNat + 1 else 1)
    let first (r : StagedRecord) : Option Position := if r.moved = 0 then some position else r.firstPosition
    ∃ t, exec (.tick c.generator lanes) s = .next t
      ∧ t.port n = s.periodOf n frame ∧ (t.stream n).lastFrame = frame ∧ rest <+: (t.stream n).fifo
      ∧ (t.stream n).dataFrames = (if p.gap then c.dataFrames else c.dataFrames + 1)
      ∧ (t.stream n).gapFrames = (if p.gap then c.gapFrames + 1 else c.gapFrames)
      ∧ (t.stream n).starvedFrames = c.starvedFrames ∧ (t.stream n).starveRun = 0
      ∧ ((t.stream n).state = (if c.state = .starved then .running else c.state) ∨ (t.stream n).state = .idle)
      ∧ (c.starveRun = 0 → (t.stream n).endMissed = c.endMissed)
      ∧ (c.starveRun ≠ 0 →
        (t.stream n).endMissed = 0 ∧ .starveEnd n position c.starveRun c.endMissed ∈ t.heldEvents
            ∧ s.events.holding.length < 8
          ∨ (t.stream n).endMissed = min 65535 (c.endMissed + 1) ∧ 8 ≤ t.events.holding.length)
      ∧ (c.inRingOrder = true → c.staging.length ≤ 16 → ∀ r₀ ∈ c.staging, r₀.ringIndex = p.ring →
        (∀ r ∈ (t.stream n).staging, r.ringIndex = p.ring →
          r.moved = r₀.moved + 1 ∧ r.firstPosition = first r₀
            ∧ r.finished = (r₀.finished || r₀.moved + 1 == total r₀))
        ∧ (r₀.moved = 0 → r₀.record.markFlag = true →
          (t.stream n).markMissed = 0 ∧ .mark n r₀.record.tag position c.markMissed ∈ t.heldEvents
              ∧ s.events.holding.length < 8
            ∨ (t.stream n).markMissed = min 65535 (c.markMissed + 1) ∧ 8 ≤ t.events.holding.length)
        ∧ (r₀.moved ≠ 0 ∨ r₀.record.markFlag = false → (t.stream n).markMissed = c.markMissed)
        ∧ (c.staging.head? = some r₀ → r₀.moved + 1 = total r₀ → r₀.invalid = none → r₀.retired = none →
          r₀.outstanding = 0 → c.pendingReport = none → c.faultOwed = none →
          let done : Event := .bufferDone n r₀.record.tag p.ring .done none (r₀.moved + 1) (first r₀) r₀.record.quietFlag
          done ∈ t.heldEvents ∨ (t.stream n).pendingReport = some ⟨done, false⟩))

/-- A CAPTURE stream with a record to serve: a DATA record takes the lane's frame into a new place, or, for a GAP
record, the frame is dropped and counts as moved; the record's frames assigned rise by one, its first one sets the
first position and produces MARK when flagged, and a starve run ends with STARVE_END. The last assignment of a GAP
record finishes it, and at the head of the list it retires DONE, its BUFFER_DONE accepted or waiting. Bits that the row
does not give read 0 by THE MODEL'S CHOICE (log 4) (R59, R37, R38, R39, R40, R41, R63, R70, R151). -/
def Obligations.CaptureTickAssigns : Prop :=
  ∀ (s : State) (n : StreamNo) (lanes : List (List Bool)) (r₀ : StagedRecord), s.runsOn n →
    (s.stream n).inTail = false → (s.stream n).direction = .capture → (s.stream n).current = some r₀ →
    r₀.record.isGap = true ∨ (s.stream n).fifo.length < 32 →
    let c := s.stream n
    let position := (s.generator c.generator).position + 1
    let gap := r₀.record.isGap
    let frame := if (s.port n).active then frameOfBits c.width c.slots (lanes.getD n.val []) else List.replicate c.frameSize 0
    let place : Place := ⟨r₀.ringIndex, 0, r₀.progress, false, frame.map some, 0, 0, 0, false⟩
    let first : Option Position := if r₀.progress = 0 then some position else r₀.firstPosition
    let ends := gap && r₀.progress + 1 == r₀.record.frameCount.toNat
    ∃ t, exec (.tick c.generator lanes) s = .next t
      ∧ t.port n = s.periodOf n []
      ∧ (t.stream n).fifo.map Place.apartFromGrants
        = (c.fifo ++ if gap then [] else [place]).map Place.apartFromGrants
      ∧ (t.stream n).dataFrames = (if gap then c.dataFrames else c.dataFrames + 1)
      ∧ (t.stream n).gapFrames = (if gap then c.gapFrames + 1 else c.gapFrames)
      ∧ (t.stream n).starvedFrames = c.starvedFrames ∧ (t.stream n).starveRun = 0
      ∧ ((t.stream n).state = (if c.state = .starved then .running else c.state) ∨ (t.stream n).state = .idle)
      ∧ (c.starveRun = 0 → (t.stream n).endMissed = c.endMissed)
      ∧ (c.starveRun ≠ 0 →
        (t.stream n).endMissed = 0 ∧ .starveEnd n position c.starveRun c.endMissed ∈ t.heldEvents
            ∧ s.events.holding.length < 8
          ∨ (t.stream n).endMissed = min 65535 (c.endMissed + 1) ∧ 8 ≤ t.events.holding.length)
      ∧ (r₀.progress = 0 → r₀.record.markFlag = true →
        (t.stream n).markMissed = 0 ∧ .mark n r₀.record.tag position c.markMissed ∈ t.heldEvents
            ∧ s.events.holding.length < 8
          ∨ (t.stream n).markMissed = min 65535 (c.markMissed + 1) ∧ 8 ≤ t.events.holding.length)
      ∧ (r₀.progress ≠ 0 ∨ r₀.record.markFlag = false → (t.stream n).markMissed = c.markMissed)
      ∧ (c.inRingOrder = true → c.staging.length ≤ 16 → ∀ r ∈ (t.stream n).staging, r.ringIndex = r₀.ringIndex →
        r.progress = r₀.progress + 1 ∧ r.firstPosition = first ∧ r.moved = (if gap then r₀.moved + 1 else r₀.moved)
          ∧ r.finished = (r₀.finished || ends))
      ∧ (c.staging.head? = some r₀ → ends = true → r₀.retired = none → r₀.outstanding = 0 → c.pendingReport = none →
        c.faultOwed = none →
        let done : Event := .bufferDone n r₀.record.tag r₀.ringIndex .done none (r₀.moved + 1) first r₀.record.quietFlag
        done ∈ t.heldEvents ∨ (t.stream n).pendingReport = some ⟨done, false⟩)

/-- A starved tick, OUTPUT without a ready head frame or CAPTURE without a place: it is counted, the lane carries what
the starve policy gives, HALT faults the stream with UNDERRUN, its data reads marked for discard, and otherwise a
RUNNING stream is STARVED and the first of a starve run produces STARVE_BEGIN, held or, the list full, dropped and
counted (R22, R58, R60, R63, R66, R151). -/
def Obligations.StarvedTickCounts : Prop :=
  ∀ (s : State) (n : StreamNo) (lanes : List (List Bool)), s.runsOn n → (s.stream n).inTail = false →
    s.isSettled n = true →
    let c := s.stream n
    let position := (s.generator c.generator).position + 1
    (c.direction = .output ∧ (∀ p ∈ c.fifo.head?, none ∈ p.bytes)
      ∨ c.direction = .capture ∧ (∀ r ∈ c.current, r.record.isGap = false ∧ 32 ≤ c.fifo.length)) →
    ∃ t, exec (.tick c.generator lanes) s = .next t
      ∧ (t.stream n).starvedFrames = c.starvedFrames + 1 ∧ (t.stream n).starveRun = c.starveRun + 1
      ∧ (t.stream n).dataFrames = c.dataFrames ∧ (t.stream n).gapFrames = c.gapFrames
      ∧ (t.stream n).lastFrame = c.lastFrame
      ∧ t.port n = s.periodOf n
        (if c.direction = .capture then []
          else if c.policy = .repeatFrame then c.lastFrame else List.replicate c.frameSize 0)
      ∧ (c.policy = .halt →
        (t.stream n).state = .faulted ∧ (t.stream n).faultCause = some .underrun ∧ (t.stream n).faultInRun = true
          ∧ (c.direction = .output → (t.stream n).fifo = [])
          ∧ (c.direction = .capture → ∀ p ∈ (t.stream n).fifo, p.writes ≠ 0)
          ∧ s.readsDiscarded t none n
          ∧ (.streamFault n .underrun position ∈ t.heldEvents
            ∨ (t.stream n).pendingReport = some ⟨.streamFault n .underrun position, false⟩
            ∨ (t.stream n).faultOwed = some (.underrun, position)))
      ∧ (c.policy ≠ .halt →
        (t.stream n).state = (if c.state = .running then .starved else c.state)
          ∧ (c.direction = .capture →
            (t.stream n).fifo.map Place.apartFromGrants = c.fifo.map Place.apartFromGrants)
          ∧ (c.direction = .output → c.fifo <+: (t.stream n).fifo)
          ∧ (c.starveRun ≠ 0 → (t.stream n).beginMissed = c.beginMissed)
          ∧ (c.starveRun = 0 →
            (t.stream n).beginMissed = 0 ∧ .starveBegin n position c.beginMissed ∈ t.heldEvents
                ∧ s.events.holding.length < 8
              ∨ (t.stream n).beginMissed = min 65535 (c.beginMissed + 1) ∧ 8 ≤ t.events.holding.length))

/-- A tick in the tail of a run that END or a drain has ended (from the retirement on, log 7): it counts as starved,
the lane carries what the starve policy gives, and the STOP_DONE that waits is brought up to the tick (R64, R145). -/
def Obligations.EndedRunTicks : Prop :=
  ∀ (s : State) (n : StreamNo) (lanes : List (List Bool)), s.runsOn n → (s.stream n).inTail = true →
    let c := s.stream n
    let d := { c with starvedFrames := c.starvedFrames + 1, starveRun := c.starveRun + 1 }
    ∃ t, exec (.tick c.generator lanes) s = .next t
      ∧ { d with
          pendingReport := match c.pendingReport with
            | some ⟨.streamStopDone m g reason _, drainRun⟩ =>
              some ⟨.streamStopDone m g reason d.finalPosition, drainRun⟩
            | other => other }.grantsTo (t.stream n)
      ∧ t.port n = s.periodOf n
        (if c.direction = .capture then []
          else if c.policy = .repeatFrame then c.lastFrame else List.replicate c.frameSize 0)

/-- A START entry fires at the next tick of its generator: the ARMED stream starts a run that uses the tick, and
answers; the entry stands answered, or its START_DONE with the fire position is held (R10, R99, R100, R102). -/
def Obligations.StartFires : Prop :=
  ∀ (s : State) (g : GenNo) (n : StreamNo) (x : ScheduleEntry) (lanes : List (List Bool)),
    s.firesNext g n x .start → s.scheduleConsistent = true → (s.stream n).state = .armed →
    let position := (s.generator g).position + 1
    ∃ t, exec (.tick g lanes) s = .next t
      ∧ (t.stream n).startPosition = some position ∧ (t.stream n).scheduleEntry = none
      ∧ ((t.stream n).state = .running ∨ (t.stream n).state = .starved ∨ (t.stream n).state = .faulted
        ∨ (t.stream n).state = .idle)
      ∧ (t.stream n).dataFrames + (t.stream n).gapFrames + (t.stream n).starvedFrames = 1
      ∧ (∀ y ∈ t.schedule.entries, y.id = x.id → y.answered.getLsbD n.val = true)
      ∧ ((∀ y ∈ t.schedule.entries, y.id ≠ x.id) →
        ∃ set, .startDone x.id g set position x.late ∈ t.heldEvents ∧ set.getLsbD n.val = true)

/-- A STOP entry fires at the next tick of its generator: the RUNNING or STARVED stream enters STOPPING without using
the tick, its lane idle, its run counts frozen and its data reads marked for discard, and answers when STOPPING ends;
the entry's STOP_DONE carries the last position that the stopped streams used (R16, R66, R99, R101, R103). -/
def Obligations.StopFires : Prop :=
  ∀ (s : State) (g : GenNo) (n : StreamNo) (x : ScheduleEntry) (lanes : List (List Bool)),
    s.firesNext g n x .stop → s.scheduleConsistent = true →
    (s.stream n).state = .running ∨ (s.stream n).state = .starved →
    (s.stream n).reportConsistent = true →
    let c := s.stream n
    let reason : StopReason := match x.condition with
      | .trigger _ => .trigger
      | _ => .atPosition
    ∃ t, exec (.tick g lanes) s = .next t ∧ c.sameRun (t.stream n) ∧ (t.stream n).scheduleEntry = none
      ∧ t.port n = s.periodOf n (if c.direction = .capture then [] else List.replicate c.frameSize 0)
      ∧ s.readsDiscarded t none n
      ∧ ((t.stream n).state = .stopping ∧ (t.stream n).destination = some .idle
          ∧ (t.stream n).stopOrigin = some .entry ∧ (t.stream n).answerTo = some x.id
          ∧ (c.direction = .output → (t.stream n).fifo = [])
          ∧ (c.direction = .capture → ∀ p ∈ (t.stream n).fifo, p.writes ≠ 0)
        ∨ (t.stream n).state = .idle
          ∧ (∀ y ∈ t.schedule.entries, y.id = x.id → y.answered.getLsbD n.val = true)
          ∧ ((∀ y ∈ t.schedule.entries, y.id ≠ x.id) →
            ∃ set, .entryStopDone x.id g set reason (s.generator g).position x.late ∈ t.heldEvents
              ∧ set.getLsbD n.val = true))

/-! ### References, trigger lines, claims and the event write (chapters 4, 5 and 7) -/

/-- A reference edge that completes no tick is counted and restarts an armed monitor; the edge that completes one is a
TICK (log 10), and without a RUNNING generator no edge is counted. When the monitor expires, the RUNNING generator is
LOST at its held position, the lanes bound to it go quiet, both units are handed the claim, and REFERENCE_LOST is held
or waits in the pending slot; without an armed monitor nothing expires (log 1) (R79, R82, R83, R86). -/
def Obligations.ReferenceMonitored : Prop :=
  ∀ (s : State) (g : GenNo),
    let x := s.generator g
    let runs : Prop := s.isActive = true ∧ x.state = .running
    let lost : State := { s.putGenerator g { x with state := .lost, monitor := none } with
      ports := Vector.ofFn (fun n => if (s.stream n).generator = g then quietPort else s.port n)
      streamLosses := s.streamLosses ++ [⟨g, x.position⟩]
      schedule := { s.schedule with losses := s.schedule.losses ++ [⟨g, x.position⟩] } }
    let held : State := { lost with events := { s.events with
      holding := s.events.holding ++ [(⟨.referenceLost g x.position, false⟩ : HeldEvent)] } }
    let waiting : State := { lost with timebase := { lost.timebase with
      lostReports := s.timebase.lostReports ++ [(⟨g, x.position⟩ : LossClaim)] } }
    (runs → x.edges + 1 < x.divider →
      exec (.referenceEdge g) s = .next (s.putGenerator g { x with
        edges := x.edges + 1
        monitor := x.monitor.map (fun _ => x.lossWindow) }))
    ∧ (¬runs ∨ x.divider ≤ x.edges + 1 → exec (.referenceEdge g) s = .next s)
    ∧ (runs → x.monitor ≠ none → s.timebase.lostReports = [] → s.roomFor timebaseProducer = true →
      ∃ t, exec (.referenceMonitorExpiry g) s = .next t ∧ held.grantsTo t)
    ∧ (runs → x.monitor ≠ none → s.placeFree = false →
      ∃ t, exec (.referenceMonitorExpiry g) s = .next t ∧ waiting.grantsTo t)
    ∧ (¬runs ∨ x.monitor = none → exec (.referenceMonitorExpiry g) s = .next s)

/-- The Stream Unit takes a reference-loss claim: every ARMED or running stream of the generator faults with
REFERENCE_LOST, its STREAM_FAULT carrying the last position, its FIFO emptied, its data reads marked for discard and
its schedule entry handed a removal claim with reason REFERENCE_LOST; every other stream is as it was. The fault in
run flag is clear from the retirement that ends a run on, which is read from R64 by log 7 (R84, R19, R66, R104). -/
def Obligations.StreamLossFaults : Prop :=
  ∀ (s : State) (g : GenNo) (l : LossClaim), s.isActive = true →
    s.streamLosses.find? (fun l => l.generator == g) = some l → (∀ n, (s.stream n).reportConsistent = true) →
    let hit (n : StreamNo) : Prop :=
      (s.stream n).generator = g ∧ ((s.stream n).state = .armed ∨ (s.stream n).isRunning = true)
    ∃ t, exec (.streamReferenceLoss g) s = .next t ∧ t.streamLosses = s.streamLosses.erase l
      ∧ t.timebase = s.timebase ∧ t.engine = s.engine ∧ t.ports = s.ports
      ∧ s.agreesBeyond t none hit hit
      ∧ (∀ n : StreamNo,
        let c := s.stream n
        hit n → (t.stream n).state = .faulted ∧ (t.stream n).faultCause = some .referenceLost
          ∧ (t.stream n).faultInRun = (c.isRunning && !c.inTail) ∧ c.sameRun (t.stream n)
          ∧ (t.stream n).scheduleEntry = none ∧ (t.stream n).drainLimit = none
          ∧ (c.direction = .output → (t.stream n).fifo = [])
          ∧ (c.direction = .capture → ∀ p ∈ (t.stream n).fifo, p.writes ≠ 0)
          ∧ s.readsDiscarded t none n
          ∧ (.streamFault n .referenceLost l.position ∈ t.heldEvents
            ∨ (t.stream n).pendingReport = some ⟨.streamFault n .referenceLost l.position, false⟩
            ∨ (t.stream n).faultOwed = some (.referenceLost, l.position)))
      ∧ s.schedule.removals <+: t.schedule.removals
      ∧ (let claims := t.schedule.removals.drop s.schedule.removals.length
        (claims.map (fun c => c.stream)).Nodup
          ∧ (∀ c ∈ claims, c.reason = .referenceLost ∧ hit c.stream ∧ (s.stream c.stream).scheduleEntry = some c.entry)
          ∧ ∀ n, hit n → (s.stream n).scheduleEntry ≠ none → n ∈ claims.map (fun c => c.stream))

/-- The Schedule Unit takes a reference-loss claim: every WAITING entry of the generator is cleared with reason
REFERENCE_LOST. An entry of another generator, and one that is FIRING, stays as it is; one whose closing event was
decided before stays with it or has it placed. No stream is changed (R107, R85). -/
def Obligations.ScheduleLossClears : Prop :=
  ∀ (s : State) (g : GenNo) (l : LossClaim), s.isActive = true →
    s.schedule.losses.find? (fun l => l.generator == g) = some l →
    s.scheduleConsistent = true →
    ∃ t, exec (.scheduleReferenceLoss g) s = .next t ∧ t.schedule.losses = s.schedule.losses.erase l
      ∧ t.schedule.removals = s.schedule.removals
      ∧ t.timebase = s.timebase ∧ t.ports = s.ports ∧ s.agreesInControl t
      ∧ s.agreesBeyond t none (fun _ => False) (fun _ => False)
      ∧ ∀ x ∈ s.schedule.entries,
        (x.state = .waiting → x.generator = g →
          t.closesWith x.id .clearedUnreported (.entryCleared x.id x.kind .referenceLost))
        ∧ (x.state = .firing ∨ x.state = .waiting ∧ x.generator ≠ g →
          ∃ y ∈ t.schedule.entries, y.id = x.id ∧ y.state = x.state ∧ y.closing = x.closing ∧ y.streams = x.streams
            ∧ y.answered = x.answered ∧ y.firePosition = x.firePosition ∧ y.kind = x.kind ∧ y.generator = x.generator)
        ∧ (x.state = .firedUnreported ∨ x.state = .clearedUnreported →
          (∃ y ∈ t.schedule.entries, y.id = x.id ∧ y.state = x.state ∧ y.closing = x.closing)
          ∨ (∀ y ∈ t.schedule.entries, y.id ≠ x.id) ∧ ∃ ev ∈ x.closing, ev ∈ t.heldEvents)

/-- The Schedule Unit takes a removal claim: the stream leaves the set of the WAITING or FIRING entry. A WAITING entry
whose set is then empty is cleared with the claim's reason; a FIRING one whose remaining streams have all answered is
decided, with START_DONE or STOP_DONE for the answered set or, none having answered, ENTRY_CLEARED. A claim on any
other entry, on a stream that the entry no longer names or on an id that no entry holds is ignored. Of several claims of
one stream the oldest is taken, which is THE MODEL'S CHOICE (log 35). With no claim waiting nothing changes, which is THE
MODEL'S reading of a claim that nobody handed over (log 1) (R102, R103, R104, R105). -/
def Obligations.RemovalClaimTaken : Prop :=
  ∀ (s : State) (n : StreamNo), s.isActive = true →
    (s.schedule.removals.find? (fun c => c.stream == n) = none → exec (.removalClaim n) s = .next s)
    ∧ ∀ c : RemovalClaim, s.schedule.removals.find? (fun c => c.stream == n) = some c →
      s.scheduleConsistent = true → s.owesNoAnswer = true →
      let taken : State := { s with schedule := { s.schedule with removals := s.schedule.removals.erase c } }
      let live (x : ScheduleEntry) : Prop :=
        x.id = c.entry ∧ (x.state = .waiting ∨ x.state = .firing) ∧ x.streams.getLsbD n.val = true
      ((∀ x ∈ s.schedule.entries, ¬live x) → ∃ t, exec (.removalClaim n) s = .next t ∧ taken.grantsTo t)
      ∧ ∀ x ∈ s.schedule.entries, live x →
        let left : StreamSet := x.streams &&& ~~~streamBit n
        let ends : Prop := if x.state = .waiting then left = 0 else left &&& ~~~x.answered = 0
        let shrunk : State := { taken with schedule := { taken.schedule with
          entries := s.schedule.entries.map (fun y : ScheduleEntry =>
            if y.id = x.id then { y with streams := left, lastRemoval := some c.reason } else y) } }
        let fired := x.firePosition.getD 0
        let reason : StopReason := match x.condition with
          | .trigger _ => .trigger
          | _ => .atPosition
        (¬ends → ∃ t, exec (.removalClaim n) s = .next t ∧ shrunk.grantsTo t)
        ∧ (ends →
          ∃ t, exec (.removalClaim n) s = .next t ∧ t.schedule.removals = s.schedule.removals.erase c
            ∧ (if x.state = .waiting ∨ x.answered = 0 then
                t.closesWith x.id .clearedUnreported (.entryCleared x.id x.kind c.reason)
              else if x.kind = .start then
                t.closesWith x.id .firedUnreported (.startDone x.id x.generator x.answered fired x.late)
              else
                t.closesWith x.id .firedUnreported
                  (.entryStopDone x.id x.generator x.answered reason (fired - 1) x.late))
            ∧ t.timebase = s.timebase ∧ t.ports = s.ports ∧ s.agreesInControl t
            ∧ s.agreesBeyond t none (fun _ => False) (fun _ => False))

/-- A selected edge makes every WAITING TRIGGER entry of its line that is not yet due fire at the next tick of its own
generator and, with reporting on, produces a TRIGGER notice or is counted as missed; a transition that is not selected
changes nothing (R90, R91, R98, R151). -/
def Obligations.TriggerEdgeTaken : Prop :=
  ∀ (s : State) (l : LineNo) (edge : Edge),
    let x := s.line l
    let selected : Prop := x.selection = .both ∨ (x.selection = .rising ∧ edge = .rising)
      ∨ (x.selection = .falling ∧ edge = .falling)
    let due : State := { s with schedule := { s.schedule with
      entries := s.schedule.entries.map (fun y =>
        if y.state = .waiting ∧ y.condition = .trigger l ∧ y.firePosition = none then
          { y with firePosition := some (nextPosition (s.generator y.generator).position) }
        else y) } }
    let marks := Config.generators.map (fun g =>
      ((s.generator g).state, if (s.generator g).state = .off then 0 else (s.generator g).position))
    let noticed : State :=
      if x.report = false then due
      else if 8 ≤ s.events.holding.length then due.putLine l { x with missed := min 65535 (x.missed + 1) }
      else { due.putLine l { x with missed := 0 } with events := { s.events with
        holding := s.events.holding ++ [⟨.trigger l edge x.missed marks, false⟩] } }
    (s.isActive = true → selected → ∃ t, exec (.triggerEdge l edge) s = .next t ∧ noticed.grantsTo t)
    ∧ (s.isActive = false ∨ ¬selected → exec (.triggerEdge l edge) s = .next s)

/-- An event write that completes OK posts its events, which leave the head of the list; its counted events, all but a
BUFFER_DONE with QUIET, raise the moderation count, which at the threshold sets PENDING and returns to 0 and otherwise
starts the holdoff timer from 0. The places it frees go one at a time to the waiting producers: the first in the
circle Command Unit, Schedule Unit, Timebase Unit, streams 0 to 7 after the one last served, which becomes the last
served; with none waiting nothing is granted. The timer's expiry sets PENDING; that an expiry of a timer that does not
run changes nothing is THE MODEL'S reading (log 1) (R149, R150, R156, R161, R162, R163). -/
def Obligations.EventWritePosts : Prop :=
  (∀ (s : State) (e : TransferId) (t : Transfer) (k : Nat), s.arrives e t = true → t.requester = .eventWrite →
    t.item = .entries k →
    let v := s.events
    let quiet : Event → Bool
      | .bufferDone _ _ _ _ _ _ _ quiet => quiet
      | _ => false
    let counted := ((s.heldEvents.take k).filter (fun x => !quiet x)).length
    let signals := counted ≠ 0 ∧ v.threshold ≤ v.count + counted
    ∃ u, exec (.eventWriteComplete e) s = .next u
      ∧ s.heldEvents.drop k <+: u.heldEvents
      ∧ ((∀ p, s.waits p = false) → u.heldEvents = s.heldEvents.drop k ∧ u.events.lastServed = v.lastServed)
      ∧ (s.commandConsistent = true → (s.heldEvents.drop k).length < 8 → ∀ p ∈ s.nextWaiting, ∀ ev ∈ s.waitingEvent p,
        s.heldEvents.drop k ++ [ev] <+: u.heldEvents)
      ∧ u.events.posted = v.posted + k ∧ u.events.releaseIndex = v.releaseIndex
      ∧ u.events.pending = (v.pending || decide signals)
      ∧ u.events.count = (if signals then 0 else v.count + counted)
      ∧ u.events.timerRunning = (!decide signals && (v.timerRunning || counted != 0 && v.count == 0 && v.holdoff != 0))
      ∧ u.timebase.generators = s.timebase.generators ∧ u.timebase.lines = s.timebase.lines
      ∧ (∀ e' r, e' ≠ e → s.transfer e' = some r → u.transfer e' = some r)
      ∧ s.agreesInControl u)
  ∧ (∀ (s : State) (p : Producer),
    (s.nextWaiting = some p ↔ s.waits p = true
      ∧ ∀ q, s.waits q = true → (p - s.events.lastServed - 1).val ≤ (q - s.events.lastServed - 1).val)
    ∧ (s.commandConsistent = true → s.waits p = true → ∃ ev, s.waitingEvent p = some ev
      ∧ s.heldEvents ++ [ev] <+: (s.serve p).heldEvents ∧ (s.serve p).events.lastServed = p))
  ∧ ∀ s : State,
    (s.isActive = true → s.events.timerRunning = true →
      exec .holdoffTimerExpiry s = .next { s with events := { s.events with
        pending := true, count := 0, timerRunning := false } })
    ∧ (s.isActive = false ∨ s.events.timerRunning = false → exec .holdoffTimerExpiry s = .next s)

/-! ### The lane, and the records of the Control Ring -/

/-- A quiet lane rests at its bit-clock idle level with frame sync and data low. An active one has a bit clock that
rests at that level between its edges, changes data on the data-change edge and samples on the other, and in a frame
period slots × width bit periods: frame sync high through slot 0 in LEVEL form and in the last bit period in PULSE
form, and on an OUTPUT lane the frame's samples in slot order, each most significant bit first. The output data of an
active CAPTURE lane, which no rule gives, is low by THE MODEL'S CHOICE (log 33). The bits that carry a frame make the
same frame again at a capture port (R23, R50, R69, R71, R72). -/
def Obligations.LaneCarriesFrame : Prop :=
  (∀ (s : State) (n : StreamNo),
    let c := s.stream n
    let level (high : Bool) : Level := if high then .high else .low
    ((s.port n).active = false → s.laneSignal n = .quiet c.idleLevel .low .low)
    ∧ ((s.port n).active = true → c.width = 16 ∨ c.width = 32 →
      (c.direction = .output → (s.port n).frame.length = c.frameSize) →
      ∃ clock sample bits, s.laneSignal n = .framePeriod clock c.changeEdge sample bits
        ∧ clock.rest = c.idleLevel
        ∧ clock.leading = (if c.idleLevel = .low then .rising else .falling)
        ∧ clock.trailing = (if c.idleLevel = .low then .falling else .rising)
        ∧ sample ≠ c.changeEdge
        ∧ bits.length = c.slots * c.width
        ∧ ∀ slot < c.slots, ∀ k < c.width, bits[slot * c.width + k]? = some {
            sync := level (match c.syncForm with
              | .level => slot == 0
              | .pulse => slot + 1 == c.slots && k + 1 == c.width)
            data := level (match c.direction with
              | .output =>
                let bit := c.width - 1 - k
                ((s.port n).frame.getD (slot * (c.width / 8) + bit / 8) 0).getLsbD (bit % 8)
              | .capture => false) }))
  ∧ ∀ (width slots : Nat) (frame : List Byte), width = 16 ∨ width = 32 → frame.length = slots * width / 8 →
    (bitsOfFrame width slots frame).length = slots * width
      ∧ frameOfBits width slots (bitsOfFrame width slots frame) = frame

/-- Decoding the 64 bytes of a command record gives back the command, for every well-formed command of the Control
Ring and every value of its fields (section 10.3). That a START or STOP whose condition code names none of its rows
decodes to startNext or stopNow is THE MODEL'S CHOICE (log 22). -/
def Obligations.CommandRecordRoundTrip : Prop :=
  ∀ (i : Instr) (e : TransferId) (bytes : List Byte), WellFormed i = true → completionEntry i = some e →
    encodeCommandRecord i = some bytes → bytes.length = 64 ∧ decodeCommandRecord e bytes = i

/-! ### Invariants of every step -/

/-- The invariants hold right after a full reset. -/
def Obligations.ResetMeetsInvariants : Prop :=
  State.reset.engineConsistent = true ∧ State.reset.bounded = true ∧ State.reset.noneWaits = true
    ∧ State.reset.commandConsistent = true ∧ State.reset.settled = true ∧ State.reset.scheduleConsistent = true
    ∧ State.reset.stagingConsistent = true ∧ State.reset.runLaw

/-- Every step keeps the engine's states apart: OFF is parked with an empty table and no halt, LOADING and ACTIVE
issue, HALTED settles with HALT set and a cause, QUIESCING settles, or issues while completions are taken ahead of the
quiesce claim (log 32), until its table is empty (R174, R181, R184, R189, R192, R193). -/
def Obligations.StepKeepsEngineConsistent : Prop :=
  ∀ s t : State, s.engineConsistent = true → step s = .next t → t.engineConsistent = true

/-- Every step keeps every list within its places: the Event Holding List, the Schedule Table, the staging lists and
the frame FIFOs, whose places keep the frame size; and a RUNNING generator has counted fewer edges than its divider
(R30, R34, R49, R75, R79, R93, R96, R148). -/
def Obligations.StepKeepsBounds : Prop :=
  ∀ s t : State, s.bounded = true → step s = .next t → t.bounded = true

/-- Every step keeps the Event Holding List served: no producer waits while a place is free, and a command in progress
waits for something (R120, R123, R148, R149, R150). -/
def Obligations.StepLeavesNoneWaiting : Prop :=
  ∀ s t : State, s.noneWaits = true → s.commandConsistent = true → step s = .next t →
    t.noneWaits = true ∧ t.commandConsistent = true

/-- Every step keeps the law of R4: in a running stream data frames, gap frames and starved frames add up to the ticks
since its start position. The premise leaves out counts that stand at their top, where the manual gives no value (log
5) (R4, R12). -/
def Obligations.StepKeepsRunLaw : Prop :=
  ∀ s t : State, s.runLaw → s.belowTop → step s = .next t → t.runLaw

/-- Every step outside a freeze leaves each stream with everything reported that it can report (R40, R46, R48). -/
def Obligations.StepLeavesStreamsSettled : Prop :=
  ∀ s t : State, s.engineConsistent = true → s.settled = true → step s = .next t → t.settled = true

/-- Every step keeps the Schedule Table consistent: no two entries hold one id, a WAITING entry has no answer, a
closing event belongs to a decided entry, and it is an ENTRY_CLEARED, START_DONE or STOP_DONE with that entry's id (R94,
R95, R102, R103, R105). -/
def Obligations.StepKeepsSchedule : Prop :=
  ∀ s t : State, s.scheduleConsistent = true → step s = .next t → t.scheduleConsistent = true

/-- Every step keeps every staging list in ring order, its records at the validity of their take and with frames left
or exhausted (R3, R28, R31, R34, R36, R37). -/
def Obligations.StepKeepsStaging : Prop :=
  ∀ s t : State, s.bounded = true → s.stagingConsistent = true → step s = .next t → t.stagingConsistent = true
end

