-- ==== Sys2Proof/Laws/Bytes.lean ====
section
/-! SUPPORT. Little-endian bytes: lengths, and a number and its bytes give each other back (section 6.1). -/

namespace Sys2Proof.Machine

@[simp] theorem leBytes_length (n x : Nat) : (leBytes n x).length = n := by
  induction n generalizing x with
  | zero => rfl
  | succ n ih => simp [leBytes, ih]

@[simp] theorem padTo_length (n : Nat) (bytes : List Byte) : (padTo n bytes).length = n := by
  simp [padTo]

theorem ofLeBytes_leBytes (n x : Nat) : ofLeBytes (leBytes n x) = x % 256 ^ n := by
  induction n generalizing x with
  | zero => simp [leBytes, ofLeBytes, Nat.mod_one]
  | succ n ih =>
    have h : (BitVec.ofNat 8 x).toNat = x % 256 := by rw [BitVec.toNat_ofNat]
    rw [leBytes, ofLeBytes, ih, h, Nat.pow_succ', Nat.mod_mul]

theorem ofLeBytes_lt (bytes : List Byte) : ofLeBytes bytes < 256 ^ bytes.length := by
  induction bytes with
  | nil => simp [ofLeBytes]
  | cons b bytes ih =>
    have := b.isLt
    simp only [ofLeBytes, List.length_cons, Nat.pow_succ]
    omega

theorem leBytes_ofLeBytes (bytes : List Byte) : leBytes bytes.length (ofLeBytes bytes) = bytes := by
  induction bytes with
  | nil => rfl
  | cons b bytes ih =>
    have hb := b.isLt
    have h : (b.toNat + 256 * ofLeBytes bytes) / 256 = ofLeBytes bytes := by omega
    simp only [List.length_cons, leBytes, ofLeBytes, h, ih, List.cons.injEq, and_true]
    apply BitVec.eq_of_toNat_eq
    simp [BitVec.toNat_ofNat]
    omega

@[simp] theorem msbBits_length (n x : Nat) : (msbBits n x).length = n := by
  induction n with
  | zero => rfl
  | succ n ih => simp [msbBits, ih]

/-- Every frame assembled from a lane has its slots and widths' bytes. -/
theorem frameOfBits_length (width slots : Nat) (bits : List Bool) :
    (frameOfBits width slots bits).length = slots * (width / 8) := by
  induction slots generalizing bits with
  | zero => simp [frameOfBits]
  | succ k ih => simp [frameOfBits, ih, Nat.succ_mul, Nat.add_comm]

/-- A frame spells slots times width bits. -/
theorem bitsOfFrame_length (width slots : Nat) (frame : List Byte) :
    (bitsOfFrame width slots frame).length = slots * width := by
  induction slots generalizing frame with
  | zero => simp [bitsOfFrame]
  | succ k ih => simp [bitsOfFrame, ih, Nat.succ_mul, Nat.add_comm]

end Sys2Proof.Machine
end

