-- ==== Sys2Proof/Laws/State.lean ====
section
/-! SUPPORT. Reading an item of a bank after a write, and the fields that each write leaves. -/

namespace Sys2Proof.Machine

/-! ### putStream -/

@[simp] theorem State.stream_putStream (s : State) (n : StreamNo) (c : Stream) : (s.putStream n c).stream n = c := by
  simp [State.putStream, State.stream]

theorem State.stream_putStream_of_ne (s : State) {n m : StreamNo} (c : Stream) (h : n ≠ m) :
    (s.putStream n c).stream m = s.stream m := by
  have : n.val ≠ m.val := fun e => h (Fin.ext e)
  simp [State.putStream, State.stream, this]

@[simp] theorem State.putStream_pin (s : State) (n : StreamNo) (c : Stream) : (s.putStream n c).pin = s.pin := rfl
@[simp] theorem State.putStream_engine (s : State) (n : StreamNo) (c : Stream) : (s.putStream n c).engine = s.engine := rfl
@[simp] theorem State.putStream_notifyError (s : State) (n : StreamNo) (c : Stream) : (s.putStream n c).notifyError = s.notifyError := rfl
@[simp] theorem State.putStream_transfers (s : State) (n : StreamNo) (c : Stream) : (s.putStream n c).transfers = s.transfers := rfl
@[simp] theorem State.putStream_command (s : State) (n : StreamNo) (c : Stream) : (s.putStream n c).command = s.command := rfl
@[simp] theorem State.putStream_streamLosses (s : State) (n : StreamNo) (c : Stream) : (s.putStream n c).streamLosses = s.streamLosses := rfl
@[simp] theorem State.putStream_ports (s : State) (n : StreamNo) (c : Stream) : (s.putStream n c).ports = s.ports := rfl
@[simp] theorem State.putStream_schedule (s : State) (n : StreamNo) (c : Stream) : (s.putStream n c).schedule = s.schedule := rfl
@[simp] theorem State.putStream_timebase (s : State) (n : StreamNo) (c : Stream) : (s.putStream n c).timebase = s.timebase := rfl
@[simp] theorem State.putStream_events (s : State) (n : StreamNo) (c : Stream) : (s.putStream n c).events = s.events := rfl
@[simp] theorem State.putStream_orderChoices (s : State) (n : StreamNo) (c : Stream) : (s.putStream n c).orderChoices = s.orderChoices := rfl
@[simp] theorem State.putStream_claimChoices (s : State) (n : StreamNo) (c : Stream) : (s.putStream n c).claimChoices = s.claimChoices := rfl
@[simp] theorem State.putStream_pending (s : State) (n : StreamNo) (c : Stream) : (s.putStream n c).pending = s.pending := rfl

/-! ### putPort -/

@[simp] theorem State.port_putPort (s : State) (n : StreamNo) (c : Port) : (s.putPort n c).port n = c := by
  simp [State.putPort, State.port]

theorem State.port_putPort_of_ne (s : State) {n m : StreamNo} (c : Port) (h : n ≠ m) :
    (s.putPort n c).port m = s.port m := by
  have : n.val ≠ m.val := fun e => h (Fin.ext e)
  simp [State.putPort, State.port, this]

@[simp] theorem State.putPort_pin (s : State) (n : StreamNo) (c : Port) : (s.putPort n c).pin = s.pin := rfl
@[simp] theorem State.putPort_engine (s : State) (n : StreamNo) (c : Port) : (s.putPort n c).engine = s.engine := rfl
@[simp] theorem State.putPort_notifyError (s : State) (n : StreamNo) (c : Port) : (s.putPort n c).notifyError = s.notifyError := rfl
@[simp] theorem State.putPort_transfers (s : State) (n : StreamNo) (c : Port) : (s.putPort n c).transfers = s.transfers := rfl
@[simp] theorem State.putPort_command (s : State) (n : StreamNo) (c : Port) : (s.putPort n c).command = s.command := rfl
@[simp] theorem State.putPort_streams (s : State) (n : StreamNo) (c : Port) : (s.putPort n c).streams = s.streams := rfl
@[simp] theorem State.putPort_streamLosses (s : State) (n : StreamNo) (c : Port) : (s.putPort n c).streamLosses = s.streamLosses := rfl
@[simp] theorem State.putPort_schedule (s : State) (n : StreamNo) (c : Port) : (s.putPort n c).schedule = s.schedule := rfl
@[simp] theorem State.putPort_timebase (s : State) (n : StreamNo) (c : Port) : (s.putPort n c).timebase = s.timebase := rfl
@[simp] theorem State.putPort_events (s : State) (n : StreamNo) (c : Port) : (s.putPort n c).events = s.events := rfl
@[simp] theorem State.putPort_orderChoices (s : State) (n : StreamNo) (c : Port) : (s.putPort n c).orderChoices = s.orderChoices := rfl
@[simp] theorem State.putPort_claimChoices (s : State) (n : StreamNo) (c : Port) : (s.putPort n c).claimChoices = s.claimChoices := rfl
@[simp] theorem State.putPort_pending (s : State) (n : StreamNo) (c : Port) : (s.putPort n c).pending = s.pending := rfl

/-! ### putGenerator -/

@[simp] theorem State.generator_putGenerator (s : State) (n : GenNo) (c : Generator) : (s.putGenerator n c).generator n = c := by
  simp [State.putGenerator, State.generator]

theorem State.generator_putGenerator_of_ne (s : State) {n m : GenNo} (c : Generator) (h : n ≠ m) :
    (s.putGenerator n c).generator m = s.generator m := by
  have : n.val ≠ m.val := fun e => h (Fin.ext e)
  simp [State.putGenerator, State.generator, this]

@[simp] theorem State.putGenerator_pin (s : State) (n : GenNo) (c : Generator) : (s.putGenerator n c).pin = s.pin := rfl
@[simp] theorem State.putGenerator_engine (s : State) (n : GenNo) (c : Generator) : (s.putGenerator n c).engine = s.engine := rfl
@[simp] theorem State.putGenerator_notifyError (s : State) (n : GenNo) (c : Generator) : (s.putGenerator n c).notifyError = s.notifyError := rfl
@[simp] theorem State.putGenerator_transfers (s : State) (n : GenNo) (c : Generator) : (s.putGenerator n c).transfers = s.transfers := rfl
@[simp] theorem State.putGenerator_command (s : State) (n : GenNo) (c : Generator) : (s.putGenerator n c).command = s.command := rfl
@[simp] theorem State.putGenerator_streams (s : State) (n : GenNo) (c : Generator) : (s.putGenerator n c).streams = s.streams := rfl
@[simp] theorem State.putGenerator_streamLosses (s : State) (n : GenNo) (c : Generator) : (s.putGenerator n c).streamLosses = s.streamLosses := rfl
@[simp] theorem State.putGenerator_ports (s : State) (n : GenNo) (c : Generator) : (s.putGenerator n c).ports = s.ports := rfl
@[simp] theorem State.putGenerator_schedule (s : State) (n : GenNo) (c : Generator) : (s.putGenerator n c).schedule = s.schedule := rfl
@[simp] theorem State.putGenerator_events (s : State) (n : GenNo) (c : Generator) : (s.putGenerator n c).events = s.events := rfl
@[simp] theorem State.putGenerator_orderChoices (s : State) (n : GenNo) (c : Generator) : (s.putGenerator n c).orderChoices = s.orderChoices := rfl
@[simp] theorem State.putGenerator_claimChoices (s : State) (n : GenNo) (c : Generator) : (s.putGenerator n c).claimChoices = s.claimChoices := rfl
@[simp] theorem State.putGenerator_pending (s : State) (n : GenNo) (c : Generator) : (s.putGenerator n c).pending = s.pending := rfl

@[simp] theorem State.putGenerator_lines (s : State) (n : GenNo) (c : Generator) : (s.putGenerator n c).timebase.lines = s.timebase.lines := rfl
@[simp] theorem State.putGenerator_lostReports (s : State) (n : GenNo) (c : Generator) :
    (s.putGenerator n c).timebase.lostReports = s.timebase.lostReports := rfl

/-! ### putLine -/

@[simp] theorem State.line_putLine (s : State) (n : LineNo) (c : TriggerLine) : (s.putLine n c).line n = c := by
  simp [State.putLine, State.line]

theorem State.line_putLine_of_ne (s : State) {n m : LineNo} (c : TriggerLine) (h : n ≠ m) :
    (s.putLine n c).line m = s.line m := by
  have : n.val ≠ m.val := fun e => h (Fin.ext e)
  simp [State.putLine, State.line, this]

@[simp] theorem State.putLine_pin (s : State) (n : LineNo) (c : TriggerLine) : (s.putLine n c).pin = s.pin := rfl
@[simp] theorem State.putLine_engine (s : State) (n : LineNo) (c : TriggerLine) : (s.putLine n c).engine = s.engine := rfl
@[simp] theorem State.putLine_notifyError (s : State) (n : LineNo) (c : TriggerLine) : (s.putLine n c).notifyError = s.notifyError := rfl
@[simp] theorem State.putLine_transfers (s : State) (n : LineNo) (c : TriggerLine) : (s.putLine n c).transfers = s.transfers := rfl
@[simp] theorem State.putLine_command (s : State) (n : LineNo) (c : TriggerLine) : (s.putLine n c).command = s.command := rfl
@[simp] theorem State.putLine_streams (s : State) (n : LineNo) (c : TriggerLine) : (s.putLine n c).streams = s.streams := rfl
@[simp] theorem State.putLine_streamLosses (s : State) (n : LineNo) (c : TriggerLine) : (s.putLine n c).streamLosses = s.streamLosses := rfl
@[simp] theorem State.putLine_ports (s : State) (n : LineNo) (c : TriggerLine) : (s.putLine n c).ports = s.ports := rfl
@[simp] theorem State.putLine_schedule (s : State) (n : LineNo) (c : TriggerLine) : (s.putLine n c).schedule = s.schedule := rfl
@[simp] theorem State.putLine_events (s : State) (n : LineNo) (c : TriggerLine) : (s.putLine n c).events = s.events := rfl
@[simp] theorem State.putLine_orderChoices (s : State) (n : LineNo) (c : TriggerLine) : (s.putLine n c).orderChoices = s.orderChoices := rfl
@[simp] theorem State.putLine_claimChoices (s : State) (n : LineNo) (c : TriggerLine) : (s.putLine n c).claimChoices = s.claimChoices := rfl
@[simp] theorem State.putLine_pending (s : State) (n : LineNo) (c : TriggerLine) : (s.putLine n c).pending = s.pending := rfl

@[simp] theorem State.putLine_generators (s : State) (n : LineNo) (c : TriggerLine) :
    (s.putLine n c).timebase.generators = s.timebase.generators := rfl
@[simp] theorem State.putLine_lostReports (s : State) (n : LineNo) (c : TriggerLine) :
    (s.putLine n c).timebase.lostReports = s.timebase.lostReports := rfl

/-! ### putTransfer -/

@[simp] theorem State.transfer_putTransfer (s : State) (n : TransferId) (c : Option Transfer) : (s.putTransfer n c).transfer n = c := by
  simp [State.putTransfer, State.transfer]

theorem State.transfer_putTransfer_of_ne (s : State) {n m : TransferId} (c : Option Transfer) (h : n ≠ m) :
    (s.putTransfer n c).transfer m = s.transfer m := by
  have : n.val ≠ m.val := fun e => h (Fin.ext e)
  simp [State.putTransfer, State.transfer, this]

@[simp] theorem State.putTransfer_pin (s : State) (n : TransferId) (c : Option Transfer) : (s.putTransfer n c).pin = s.pin := rfl
@[simp] theorem State.putTransfer_engine (s : State) (n : TransferId) (c : Option Transfer) : (s.putTransfer n c).engine = s.engine := rfl
@[simp] theorem State.putTransfer_notifyError (s : State) (n : TransferId) (c : Option Transfer) : (s.putTransfer n c).notifyError = s.notifyError := rfl
@[simp] theorem State.putTransfer_command (s : State) (n : TransferId) (c : Option Transfer) : (s.putTransfer n c).command = s.command := rfl
@[simp] theorem State.putTransfer_streams (s : State) (n : TransferId) (c : Option Transfer) : (s.putTransfer n c).streams = s.streams := rfl
@[simp] theorem State.putTransfer_streamLosses (s : State) (n : TransferId) (c : Option Transfer) : (s.putTransfer n c).streamLosses = s.streamLosses := rfl
@[simp] theorem State.putTransfer_ports (s : State) (n : TransferId) (c : Option Transfer) : (s.putTransfer n c).ports = s.ports := rfl
@[simp] theorem State.putTransfer_schedule (s : State) (n : TransferId) (c : Option Transfer) : (s.putTransfer n c).schedule = s.schedule := rfl
@[simp] theorem State.putTransfer_timebase (s : State) (n : TransferId) (c : Option Transfer) : (s.putTransfer n c).timebase = s.timebase := rfl
@[simp] theorem State.putTransfer_events (s : State) (n : TransferId) (c : Option Transfer) : (s.putTransfer n c).events = s.events := rfl
@[simp] theorem State.putTransfer_orderChoices (s : State) (n : TransferId) (c : Option Transfer) : (s.putTransfer n c).orderChoices = s.orderChoices := rfl
@[simp] theorem State.putTransfer_claimChoices (s : State) (n : TransferId) (c : Option Transfer) : (s.putTransfer n c).claimChoices = s.claimChoices := rfl
@[simp] theorem State.putTransfer_pending (s : State) (n : TransferId) (c : Option Transfer) : (s.putTransfer n c).pending = s.pending := rfl

@[simp] theorem State.putTransfer_lead (s : State) (n : TransferId) (c : Option Transfer) :
    (s.putTransfer n c).transfers.lead = s.transfers.lead := rfl
@[simp] theorem State.putTransfer_mode (s : State) (n : TransferId) (c : Option Transfer) :
    (s.putTransfer n c).transfers.mode = s.transfers.mode := rfl
@[simp] theorem State.putTransfer_lastUrgent (s : State) (n : TransferId) (c : Option Transfer) :
    (s.putTransfer n c).transfers.lastUrgent = s.transfers.lastUrgent := rfl
@[simp] theorem State.putTransfer_lastData (s : State) (n : TransferId) (c : Option Transfer) :
    (s.putTransfer n c).transfers.lastData = s.transfers.lastData := rfl
@[simp] theorem State.putTransfer_lastRecord (s : State) (n : TransferId) (c : Option Transfer) :
    (s.putTransfer n c).transfers.lastRecord = s.transfers.lastRecord := rfl
@[simp] theorem State.putTransfer_faultAddress (s : State) (n : TransferId) (c : Option Transfer) :
    (s.putTransfer n c).transfers.faultAddress = s.transfers.faultAddress := rfl

/-! ### modifyStream -/

@[simp] theorem State.stream_modifyStream (s : State) (n : StreamNo) (f : Stream → Stream) :
    (s.modifyStream n f).stream n = f (s.stream n) := by simp [State.modifyStream]

theorem State.stream_modifyStream_of_ne (s : State) {n m : StreamNo} (f : Stream → Stream) (h : n ≠ m) :
    (s.modifyStream n f).stream m = s.stream m := by simp [State.modifyStream, State.stream_putStream_of_ne _ _ h]

@[simp] theorem State.modifyStream_pin (s : State) (n : StreamNo) (f : Stream → Stream) :
    (s.modifyStream n f).pin = s.pin := rfl
@[simp] theorem State.modifyStream_engine (s : State) (n : StreamNo) (f : Stream → Stream) :
    (s.modifyStream n f).engine = s.engine := rfl
@[simp] theorem State.modifyStream_notifyError (s : State) (n : StreamNo) (f : Stream → Stream) :
    (s.modifyStream n f).notifyError = s.notifyError := rfl
@[simp] theorem State.modifyStream_transfers (s : State) (n : StreamNo) (f : Stream → Stream) :
    (s.modifyStream n f).transfers = s.transfers := rfl
@[simp] theorem State.modifyStream_command (s : State) (n : StreamNo) (f : Stream → Stream) :
    (s.modifyStream n f).command = s.command := rfl
@[simp] theorem State.modifyStream_streamLosses (s : State) (n : StreamNo) (f : Stream → Stream) :
    (s.modifyStream n f).streamLosses = s.streamLosses := rfl
@[simp] theorem State.modifyStream_ports (s : State) (n : StreamNo) (f : Stream → Stream) :
    (s.modifyStream n f).ports = s.ports := rfl
@[simp] theorem State.modifyStream_schedule (s : State) (n : StreamNo) (f : Stream → Stream) :
    (s.modifyStream n f).schedule = s.schedule := rfl
@[simp] theorem State.modifyStream_timebase (s : State) (n : StreamNo) (f : Stream → Stream) :
    (s.modifyStream n f).timebase = s.timebase := rfl
@[simp] theorem State.modifyStream_events (s : State) (n : StreamNo) (f : Stream → Stream) :
    (s.modifyStream n f).events = s.events := rfl
@[simp] theorem State.modifyStream_orderChoices (s : State) (n : StreamNo) (f : Stream → Stream) :
    (s.modifyStream n f).orderChoices = s.orderChoices := rfl
@[simp] theorem State.modifyStream_claimChoices (s : State) (n : StreamNo) (f : Stream → Stream) :
    (s.modifyStream n f).claimChoices = s.claimChoices := rfl
@[simp] theorem State.modifyStream_pending (s : State) (n : StreamNo) (f : Stream → Stream) :
    (s.modifyStream n f).pending = s.pending := rfl

/-! ### accept -/

@[simp] theorem State.accept_pin (s : State) (e : Event) : (s.accept e).pin = s.pin := rfl
@[simp] theorem State.accept_engine (s : State) (e : Event) : (s.accept e).engine = s.engine := rfl
@[simp] theorem State.accept_notifyError (s : State) (e : Event) : (s.accept e).notifyError = s.notifyError := rfl
@[simp] theorem State.accept_transfers (s : State) (e : Event) : (s.accept e).transfers = s.transfers := rfl
@[simp] theorem State.accept_command (s : State) (e : Event) : (s.accept e).command = s.command := rfl
@[simp] theorem State.accept_streams (s : State) (e : Event) : (s.accept e).streams = s.streams := rfl
@[simp] theorem State.accept_streamLosses (s : State) (e : Event) : (s.accept e).streamLosses = s.streamLosses := rfl
@[simp] theorem State.accept_ports (s : State) (e : Event) : (s.accept e).ports = s.ports := rfl
@[simp] theorem State.accept_schedule (s : State) (e : Event) : (s.accept e).schedule = s.schedule := rfl
@[simp] theorem State.accept_timebase (s : State) (e : Event) : (s.accept e).timebase = s.timebase := rfl
@[simp] theorem State.accept_orderChoices (s : State) (e : Event) : (s.accept e).orderChoices = s.orderChoices := rfl
@[simp] theorem State.accept_claimChoices (s : State) (e : Event) : (s.accept e).claimChoices = s.claimChoices := rfl
@[simp] theorem State.accept_pending (s : State) (e : Event) : (s.accept e).pending = s.pending := rfl
@[simp] theorem State.accept_holding (s : State) (e : Event) :
    (s.accept e).events.holding = s.events.holding ++ [⟨e, false⟩] := rfl

end Sys2Proof.Machine
end

