-- ==== Sys2Proof/Laws/Finish.lean ====
section
/-! SUPPORT. The requests and grants that close a step change nothing apart from grants (section 8.4). -/

namespace Sys2Proof.Machine

/-- Two contexts that agree apart from grants make states that do. -/
theorem State.apartFromGrants_putStream (s : State) (n : StreamNo) (c : Stream)
    (h : c.apartFromGrants = (s.stream n).apartFromGrants) :
    (s.putStream n c).apartFromGrants = s.apartFromGrants := by
  have hs : (s.streams.set n.val c n.isLt).map Stream.apartFromGrants
      = s.streams.map Stream.apartFromGrants := by
    rw [Vector.map_set, h]
    ext i hi
    by_cases e : n.val = i
    · subst e; simp [State.stream]
    · simp [e]
  simp [State.apartFromGrants, State.putStream, hs]

theorem State.apartFromGrants_modifyStream (s : State) (n : StreamNo) (f : Stream → Stream)
    (h : (f (s.stream n)).apartFromGrants = (s.stream n).apartFromGrants) :
    (s.modifyStream n f).apartFromGrants = s.apartFromGrants :=
  State.apartFromGrants_putStream _ _ _ h

theorem State.apartFromGrants_putTransfer (s : State) (e : TransferId) (t : Option Transfer) :
    (s.putTransfer e t).apartFromGrants = s.apartFromGrants := rfl

theorem map_apartFromGrants_modify (d : Direction) (l : List StagedRecord) (ring : Nat) (f : StagedRecord → StagedRecord)
    (h : ∀ r, (f r).apartFromGrants d = r.apartFromGrants d) :
    (l.map (fun r => if r.ringIndex == ring then f r else r)).map (StagedRecord.apartFromGrants d)
      = l.map (StagedRecord.apartFromGrants d) := by
  induction l with
  | nil => rfl
  | cons r l ih =>
    simp only [List.map_cons, ih]
    split <;> simp [h]

theorem StagedRecord.apartFromGrants_advance (r : StagedRecord) (k : Nat) :
    (r.advance k).apartFromGrants .output = r.apartFromGrants .output := by
  unfold StagedRecord.advance
  split <;> rfl

theorem Stream.apartFromGrants_modifyRecord (c : Stream) (ring : Nat) (f : StagedRecord → StagedRecord)
    (h : ∀ r, (f r).apartFromGrants c.direction = r.apartFromGrants c.direction) :
    (c.modifyRecord ring f).apartFromGrants = c.apartFromGrants := by
  simp only [Stream.modifyRecord, Stream.apartFromGrants]
  rw [map_apartFromGrants_modify _ _ _ _ h]

theorem Stream.apartFromGrants_fifo (c : Stream) (places : List Place) (k : Nat) (h : c.direction = .output) :
    ({ c with fifo := places, fetchSplit := k } : Stream).apartFromGrants = c.apartFromGrants := by
  simp [Stream.apartFromGrants, h]

theorem placeGaps_direction (k : Nat) (c : Stream) : (placeGaps k c).direction = c.direction := by
  induction k generalizing c with
  | zero => rfl
  | succ k ih =>
    unfold placeGaps
    split
    · rfl
    · dsimp only
      split
      · rw [ih]; rfl
      · rfl

theorem placeGaps_apartFromGrants (k : Nat) (c : Stream) (h : c.direction = .output) :
    (placeGaps k c).apartFromGrants = c.apartFromGrants := by
  induction k generalizing c with
  | zero => rfl
  | succ k ih =>
    unfold placeGaps
    split
    · rfl
    · dsimp only
      split
      · rw [ih _ (by simpa [Stream.modifyRecord] using h), Stream.apartFromGrants_modifyRecord]
        · exact Stream.apartFromGrants_fifo c _ c.fetchSplit h
        · intro r
          simpa [h] using r.apartFromGrants_advance _
      · rfl

theorem Stream.prefetchGaps_apartFromGrants (c : Stream) : c.prefetchGaps.apartFromGrants = c.apartFromGrants := by
  unfold Stream.prefetchGaps
  split
  · rename_i h
    exact placeGaps_apartFromGrants _ c (by simp_all)
  · rfl

theorem Stream.recordRead_apartFromGrants (c : Stream) (r : StagedRecord) (k : Nat) (h : c.direction = .output) :
    (c.recordRead r k).apartFromGrants = c.apartFromGrants := by
  unfold Stream.recordRead
  dsimp only
  rw [Stream.apartFromGrants_modifyRecord]
  · exact Stream.apartFromGrants_fifo c _ _ h
  · intro r
    simp only [h]
    exact r.apartFromGrants_advance _

theorem Stream.recordWrite_apartFromGrants (c : Stream) (ring offset k : Nat) (h : c.direction = .capture) :
    (c.recordWrite ring offset k).apartFromGrants = c.apartFromGrants := by
  unfold Stream.recordWrite
  dsimp only
  rw [Stream.apartFromGrants_modifyRecord]
  · simp only [Stream.apartFromGrants, h, List.map_map]
    congr 1
    apply List.map_congr_left
    intro p _
    simp only [Function.comp]
    split <;> rfl
  · intro r
    simp [h, StagedRecord.apartFromGrants]

theorem State.grantData_apartFromGrants (s : State) (e : TransferId) (n : StreamNo) :
    (s.grantData e n).apartFromGrants = s.apartFromGrants := by
  unfold State.grantData
  dsimp only
  split
  · rename_i h
    split
    · rfl
    · rw [State.apartFromGrants_putStream, State.apartFromGrants_putTransfer]
      rw [Stream.prefetchGaps_apartFromGrants, Stream.recordRead_apartFromGrants _ _ _ h]; rfl
  · rename_i h
    split
    · rfl
    · split
      · rw [State.apartFromGrants_putStream, State.apartFromGrants_putTransfer]
        rw [Stream.recordWrite_apartFromGrants _ _ _ _ h]; rfl
      · rfl

theorem State.grantRecord_apartFromGrants (s : State) (e : TransferId) (n : StreamNo) :
    (s.grantRecord e n).apartFromGrants = s.apartFromGrants := by
  unfold State.grantRecord
  rw [State.apartFromGrants_modifyStream, State.apartFromGrants_putTransfer]
  rfl

theorem EventUnit.recordWrite_holding (e : EventUnit) :
    e.recordWrite.holding.map HeldEvent.apartFromGrants = e.holding.map HeldEvent.apartFromGrants := by
  simp only [EventUnit.recordWrite, List.map_append, List.map_map]
  conv_rhs => rw [← List.take_append_drop e.writeCount e.holding, List.map_append]
  rfl

theorem State.grantOne_apartFromGrants (s s' : State) (h : s.grantOne = some s') :
    s'.apartFromGrants = s.apartFromGrants := by
  unfold State.grantOne at h
  split at h
  · cases h
  · split at h
    · cases h; rfl
    · split at h
      · cases h
        exact State.grantData_apartFromGrants _ _ _
      · split at h
        · cases h
          simp only [State.apartFromGrants, State.putTransfer, EventUnit.recordWrite_holding]
          rfl
        · split at h
          · cases h; rfl
          · split at h
            · cases h
              exact State.grantData_apartFromGrants _ _ _
            · split at h
              · rename_i e _ _ _ _ _ _ _ _ _ n _
                cases h
                exact State.grantRecord_apartFromGrants s e n
              · cases h

theorem grantFuel_apartFromGrants (k : Nat) (s : State) : (grantFuel k s).apartFromGrants = s.apartFromGrants := by
  induction k generalizing s with
  | zero => rfl
  | succ k ih =>
    unfold grantFuel
    split
    · rfl
    · rename_i h
      rw [ih, State.grantOne_apartFromGrants _ _ h]

theorem State.present_apartFromGrants (s : State) (n : StreamNo) :
    (s.present n).apartFromGrants = s.apartFromGrants := by
  unfold State.present
  have h : (s.modifyStream n Stream.prefetchGaps).apartFromGrants = s.apartFromGrants :=
    State.apartFromGrants_putStream _ _ _ (Stream.prefetchGaps_apartFromGrants _)
  dsimp only
  split
  · exact (State.apartFromGrants_modifyStream _ _ _ rfl).trans h
  · exact h

theorem foldl_present_apartFromGrants (l : List StreamNo) (s : State) :
    (l.foldl State.present s).apartFromGrants = s.apartFromGrants := by
  induction l generalizing s with
  | nil => rfl
  | cons n l ih => rw [List.foldl_cons, ih, State.present_apartFromGrants]

theorem State.presentCommand_apartFromGrants (s : State) :
    s.presentCommand.apartFromGrants = s.apartFromGrants := by
  unfold State.presentCommand
  dsimp only
  split
  · rename_i h
    simp_all [State.apartFromGrants, Phase.apartFromGrants]
  · split
    · rename_i h
      have : s.command.phase = .fetching := by simp [State.wantsCommand] at h; tauto
      simp [State.apartFromGrants, Phase.apartFromGrants, this]
    · rfl

/-- The work that closes a step changes nothing apart from grants. -/
theorem State.finish_apartFromGrants (s : State) : s.finish.apartFromGrants = s.apartFromGrants := by
  have h : (if s.isActive then (Config.streams.foldl State.present s).presentCommand else s).apartFromGrants
      = s.apartFromGrants := by
    split
    · rw [State.presentCommand_apartFromGrants, foldl_present_apartFromGrants]
    · rfl
  show (let s' := if s.isActive then (Config.streams.foldl State.present s).presentCommand else s
    if s'.transfers.mode == .issue then grantFuel 8 s' else s').apartFromGrants = _
  generalize (if s.isActive then (Config.streams.foldl State.present s).presentCommand else s) = s' at h ⊢
  dsimp only
  split
  · rw [grantFuel_apartFromGrants, h]
  · exact h

/-! ### Grants only add: transfers stand, an OUTPUT FIFO grows at its tail, marks rise -/

theorem forall₂_modify {α : Type} (R : α → α → Prop) (l : List α) (p : α → Bool) (f : α → α) (hr : ∀ a, R a a)
    (hf : ∀ a, R a (f a)) : List.Forall₂ R l (l.map (fun a => if p a then f a else a)) := by
  rw [List.forall₂_map_right_iff, List.forall₂_same]
  intro a _
  split
  · exact hf a
  · exact hr a

theorem forall₂_trans {α : Type} {R : α → α → Prop} (hR : ∀ a b c, R a b → R b c → R a c) {l m n : List α}
    (h : List.Forall₂ R l m) (k : List.Forall₂ R m n) : List.Forall₂ R l n := by
  induction h generalizing n with
  | nil => cases k; exact .nil
  | cons h _ ih => cases k with
    | cons k ks => exact .cons (hR _ _ _ h k) (ih ks)

theorem Stream.direction_of_apartFromGrants {c d : Stream} (h : d.apartFromGrants = c.apartFromGrants) :
    d.direction = c.direction := by
  have k := congrArg Stream.direction h
  exact k

theorem Stream.grantsTo_refl (c : Stream) : c.grantsTo c :=
  ⟨rfl, List.forall₂_same.2 (fun _ _ => ⟨le_rfl, le_rfl⟩), fun _ => List.prefix_rfl,
    fun _ => List.forall₂_same.2 (fun _ _ => ⟨le_rfl, le_rfl⟩)⟩

theorem Stream.grantsTo_trans {c d f : Stream} (h : c.grantsTo d) (k : d.grantsTo f) : c.grantsTo f := by
  obtain ⟨ha, hs, hf, hp⟩ := h
  obtain ⟨ka, ks, kf, kp⟩ := k
  have hd := Stream.direction_of_apartFromGrants ha
  exact ⟨ka.trans ha, forall₂_trans (fun _ _ _ x y => ⟨x.1.trans y.1, x.2.trans y.2⟩) hs ks,
    fun o => (hf o).trans (kf (hd.trans o)),
    fun o => forall₂_trans (fun _ _ _ x y => ⟨x.1.trans y.1, x.2.trans y.2⟩) (hp o) (kp (hd.trans o))⟩

theorem StagedRecord.fetched_advance (r : StagedRecord) (k : Nat) : r.fetched ≤ (r.advance k).fetched := by
  unfold StagedRecord.advance StagedRecord.fetched
  split
  · rename_i h
    simp only [Bool.and_eq_true, beq_iff_eq, decide_eq_true_eq] at h
    dsimp only
    rw [Nat.add_mul, Nat.one_mul]
    omega
  · dsimp only
    omega

theorem StagedRecord.outstanding_advance (r : StagedRecord) (k : Nat) : (r.advance k).outstanding = r.outstanding := by
  unfold StagedRecord.advance
  split <;> rfl

theorem placeGaps_grantsTo (k : Nat) (c : Stream) (h : c.direction = .output) : c.grantsTo (placeGaps k c) := by
  induction k generalizing c with
  | zero => exact c.grantsTo_refl
  | succ k ih =>
    unfold placeGaps
    split
    · exact c.grantsTo_refl
    · rename_i r _
      dsimp only
      split
      · refine Stream.grantsTo_trans ?_ (ih _ (by simpa [Stream.modifyRecord] using h))
        refine ⟨?_, ?_, ?_, ?_⟩
        · rw [Stream.apartFromGrants_modifyRecord]
          · exact Stream.apartFromGrants_fifo c _ c.fetchSplit h
          · intro r
            simpa [h] using r.apartFromGrants_advance _
        · exact forall₂_modify _ _ _ _ (fun _ => ⟨le_rfl, le_rfl⟩)
            (fun r => ⟨(r.outstanding_advance _).ge, r.fetched_advance _⟩)
        · intro _
          exact List.prefix_append _ _
        · intro o
          simp [h] at o
      · exact c.grantsTo_refl

theorem Stream.prefetchGaps_grantsTo (c : Stream) : c.grantsTo c.prefetchGaps := by
  unfold Stream.prefetchGaps
  split
  · rename_i h
    exact placeGaps_grantsTo _ c (by simp_all)
  · exact c.grantsTo_refl

theorem Stream.recordRead_grantsTo (c : Stream) (r : StagedRecord) (k : Nat) (h : c.direction = .output) :
    c.grantsTo (c.recordRead r k) := by
  refine ⟨Stream.recordRead_apartFromGrants c r k h, ?_, fun _ => List.prefix_append _ _, fun o => by simp [h] at o⟩
  refine forall₂_modify _ _ _ _ (fun _ => ⟨le_rfl, le_rfl⟩) (fun r => ⟨?_, r.fetched_advance _⟩)
  exact Nat.le_succ _

theorem Stream.recordWrite_grantsTo (c : Stream) (ring offset k : Nat) (h : c.direction = .capture) :
    c.grantsTo (c.recordWrite ring offset k) := by
  refine ⟨Stream.recordWrite_apartFromGrants c ring offset k h, ?_, fun o => by simp [h] at o, fun _ => ?_⟩
  · exact forall₂_modify _ _ _ _ (fun _ => ⟨le_rfl, le_rfl⟩) (fun r => ⟨Nat.le_succ _, le_rfl⟩)
  · show List.Forall₂ _ c.fifo (c.fifo.map _)
    rw [List.forall₂_map_right_iff, List.forall₂_same]
    intro p _
    dsimp only
    split
    · exact ⟨Nat.le_add_right _ _, Nat.le_succ _⟩
    · exact ⟨le_rfl, le_rfl⟩

/-- The transfers of `s` stand in `t`, and every stream is as it was but for grants. -/
def State.keeps (s t : State) : Prop :=
  (∀ e r, s.transfer e = some r → t.transfer e = some r) ∧ ∀ n, (s.stream n).grantsTo (t.stream n)

theorem State.keeps_refl (s : State) : s.keeps s := ⟨fun _ _ h => h, fun _ => Stream.grantsTo_refl _⟩

theorem State.keeps_trans {s t u : State} (h : s.keeps t) (k : t.keeps u) : s.keeps u :=
  ⟨fun e r x => k.1 e r (h.1 e r x), fun n => Stream.grantsTo_trans (h.2 n) (k.2 n)⟩

theorem State.keeps_putStream (s : State) (n : StreamNo) (c : Stream) (h : (s.stream n).grantsTo c) :
    s.keeps (s.putStream n c) := by
  refine ⟨fun _ _ x => x, fun m => ?_⟩
  by_cases e : n = m
  · subst e
    rw [State.stream_putStream]
    exact h
  · rw [State.stream_putStream_of_ne s c e]
    exact Stream.grantsTo_refl _

theorem State.keeps_putTransfer (s : State) (e : TransferId) (t : Option Transfer) (h : s.transfer e = none) :
    s.keeps (s.putTransfer e t) := by
  refine ⟨fun e' r x => ?_, fun _ => Stream.grantsTo_refl _⟩
  by_cases d : e = e'
  · subst d
    rw [h] at x
    cases x
  · rw [State.transfer_putTransfer_of_ne s t d]
    exact x

theorem State.grantData_keeps (s : State) (e : TransferId) (n : StreamNo) (h : s.transfer e = none) :
    s.keeps (s.grantData e n) := by
  unfold State.grantData
  dsimp only
  split
  · rename_i hd
    split
    · exact s.keeps_refl
    · exact State.keeps_trans (s.keeps_putTransfer e _ h) (State.keeps_putStream _ _ _
        (Stream.grantsTo_trans (Stream.recordRead_grantsTo _ _ _ hd) (Stream.prefetchGaps_grantsTo _)))
  · rename_i hd
    split
    · exact s.keeps_refl
    · split
      · exact State.keeps_trans (s.keeps_putTransfer e _ h)
          (State.keeps_putStream _ _ _ (Stream.recordWrite_grantsTo _ _ _ _ hd))
      · exact s.keeps_refl

theorem State.grantRecord_keeps (s : State) (e : TransferId) (n : StreamNo) (h : s.transfer e = none) :
    s.keeps (s.grantRecord e n) :=
  State.keeps_trans (s.keeps_putTransfer e _ h) (State.keeps_putStream _ _ _
    ⟨rfl, List.forall₂_same.2 (fun _ _ => ⟨le_rfl, le_rfl⟩), fun _ => List.prefix_rfl,
      fun _ => List.forall₂_same.2 (fun _ _ => ⟨le_rfl, le_rfl⟩)⟩)

theorem State.freeEntry_free (s : State) (e : TransferId) (h : s.freeEntry = some e) : s.transfer e = none := by
  simpa using List.find?_some h

/-- A requester of a standing transfer has one outstanding. -/
theorem State.outstanding_ne_zero (s : State) (e : TransferId) (t : Transfer) (h : s.transfer e = some t) :
    s.outstanding t.requester ≠ 0 := by
  unfold State.outstanding
  rw [Nat.ne_zero_iff_zero_lt, List.countP_pos_iff]
  refine ⟨some t, ?_, by simp⟩
  rw [← h]
  exact Vector.mem_toList_iff.2 (Vector.getElem_mem _)

/-- One grant keeps what stands; it gives the Event Unit a write only when none of its writes is outstanding. -/
theorem State.grantOne_keeps (s u : State) (h : s.grantOne = some u) :
    s.keeps u ∧ (u.events = s.events
      ∨ u.events = s.events.recordWrite ∧ s.outstanding .eventWrite = 0 ∧ u.outstanding .eventWrite ≠ 0) := by
  unfold State.grantOne at h
  split at h
  · cases h
  · rename_i e he
    have free := s.freeEntry_free e he
    have data (n : StreamNo) : (s.grantData e n).events = s.events := by
      unfold State.grantData
      dsimp only
      split
      · split <;> rfl
      · split
        · rfl
        · split <;> rfl
    split at h
    · cases h
      exact ⟨s.keeps_putTransfer e _ free, .inl rfl⟩
    · split at h
      · cases h
        exact ⟨s.grantData_keeps e _ free, .inl (data _)⟩
      · split at h
        · rename_i hw
          cases h
          refine ⟨s.keeps_putTransfer e _ free, .inr ⟨rfl, by simp [State.wantsEventWrite] at hw; tauto, ?_⟩⟩
          exact State.outstanding_ne_zero _ e s.events.formWrite (State.transfer_putTransfer _ _ _)
        · split at h
          · cases h
            exact ⟨s.keeps_putTransfer e _ free, .inl rfl⟩
          · split at h
            · cases h
              exact ⟨s.grantData_keeps e _ free, .inl (data _)⟩
            · split at h
              · cases h
                exact ⟨s.grantRecord_keeps e _ free, .inl rfl⟩
              · cases h

/-- What stands of a requester's transfers stays outstanding. -/
theorem State.keeps_outstanding {s t : State} (h : s.keeps t) (r : Requester) (k : s.outstanding r ≠ 0) :
    t.outstanding r ≠ 0 := by
  unfold State.outstanding at k
  rw [Nat.ne_zero_iff_zero_lt, List.countP_pos_iff] at k
  obtain ⟨o, hm, ho⟩ := k
  cases o with
  | none => simp at ho
  | some x =>
    obtain ⟨i, hi, hx⟩ := List.getElem_of_mem hm
    simp at hi hx
    have : s.transfer ⟨i, hi⟩ = some x := hx
    have hr : x.requester = r := by simpa using ho
    exact hr ▸ State.outstanding_ne_zero t _ x (h.1 _ _ this)

theorem grantFuel_keeps (k : Nat) (s : State) :
    s.keeps (grantFuel k s)
      ∧ ((grantFuel k s).events = s.events
        ∨ (grantFuel k s).events = s.events.recordWrite ∧ s.outstanding .eventWrite = 0) := by
  induction k generalizing s with
  | zero => exact ⟨s.keeps_refl, .inl rfl⟩
  | succ k ih =>
    unfold grantFuel
    split
    · exact ⟨s.keeps_refl, .inl rfl⟩
    · rename_i u hu
      obtain ⟨hk, he⟩ := s.grantOne_keeps u hu
      obtain ⟨ik, ie⟩ := ih u
      refine ⟨State.keeps_trans hk ik, ?_⟩
      rcases he with he | ⟨he, h0, h1⟩
      · rcases ie with ie | ⟨ie, i0⟩
        · exact .inl (ie.trans he)
        · refine .inr ⟨by rw [ie, he], ?_⟩
          by_contra hn
          exact State.keeps_outstanding hk _ hn i0
      · rcases ie with ie | ⟨_, i0⟩
        · exact .inr ⟨ie.trans he, h0⟩
        · exact absurd i0 h1

theorem State.present_keeps (s : State) (n : StreamNo) : s.keeps (s.present n) ∧ (s.present n).events = s.events := by
  have h : s.keeps (s.modifyStream n Stream.prefetchGaps) := s.keeps_putStream _ _ (Stream.prefetchGaps_grantsTo _)
  unfold State.present
  dsimp only
  split
  · exact ⟨State.keeps_trans h (State.keeps_putStream _ _ _
      ⟨rfl, List.forall₂_same.2 (fun _ _ => ⟨le_rfl, le_rfl⟩), fun _ => List.prefix_rfl,
        fun _ => List.forall₂_same.2 (fun _ _ => ⟨le_rfl, le_rfl⟩)⟩), rfl⟩
  · exact ⟨h, rfl⟩

theorem foldl_present_keeps (l : List StreamNo) (s : State) :
    s.keeps (l.foldl State.present s) ∧ (l.foldl State.present s).events = s.events := by
  induction l generalizing s with
  | nil => exact ⟨s.keeps_refl, rfl⟩
  | cons n l ih =>
    rw [List.foldl_cons]
    exact ⟨State.keeps_trans (s.present_keeps n).1 (ih _).1, (ih _).2.trans (s.present_keeps n).2⟩

theorem State.presentCommand_keeps (s : State) : s.keeps s.presentCommand ∧ s.presentCommand.events = s.events := by
  unfold State.presentCommand
  dsimp only
  split
  · exact ⟨s.keeps_refl, rfl⟩
  · split <;> exact ⟨s.keeps_refl, rfl⟩

/-- The work that closes a step only presents requests and grants. -/
theorem State.finish_grantsTo (s : State) : s.grantsTo s.finish := by
  have h : s.keeps (if s.isActive then (Config.streams.foldl State.present s).presentCommand else s)
      ∧ (if s.isActive then (Config.streams.foldl State.present s).presentCommand else s).events = s.events := by
    split
    · have p := foldl_present_keeps Config.streams s
      have c := State.presentCommand_keeps (Config.streams.foldl State.present s)
      exact ⟨State.keeps_trans p.1 c.1, c.2.trans p.2⟩
    · exact ⟨s.keeps_refl, rfl⟩
  have f : s.keeps s.finish ∧ (s.finish.events = s.events ∨ s.finish.events = s.events.recordWrite) := by
    show s.keeps (let s' := if s.isActive then (Config.streams.foldl State.present s).presentCommand else s
      if s'.transfers.mode == .issue then grantFuel 8 s' else s') ∧ ((let s' := if s.isActive then
        (Config.streams.foldl State.present s).presentCommand else s
      if s'.transfers.mode == .issue then grantFuel 8 s' else s').events = _ ∨ (let s' := if s.isActive then
        (Config.streams.foldl State.present s).presentCommand else s
      if s'.transfers.mode == .issue then grantFuel 8 s' else s').events = _)
    generalize (if s.isActive then (Config.streams.foldl State.present s).presentCommand else s) = s' at h ⊢
    dsimp only
    split
    · obtain ⟨gk, ge⟩ := grantFuel_keeps 8 s'
      refine ⟨State.keeps_trans h.1 gk, ?_⟩
      rcases ge with ge | ⟨ge, _⟩
      · exact .inl (ge.trans h.2)
      · exact .inr (by rw [ge, h.2])
    · exact ⟨h.1, .inl h.2⟩
  exact ⟨s.finish_apartFromGrants, f.1.1, f.1.2, f.2⟩

/-! ### What the end of a step leaves -/

theorem State.apartFromGrants_stream (s : State) (n : StreamNo) :
    s.apartFromGrants.stream n = (s.stream n).apartFromGrants := by
  simp [State.apartFromGrants, State.stream]

@[simp] theorem State.finish_pin (s : State) : s.finish.pin = s.pin := by
  have h := congrArg State.pin s.finish_apartFromGrants
  exact h

@[simp] theorem State.finish_engine (s : State) : s.finish.engine = s.engine := by
  have h := congrArg State.engine s.finish_apartFromGrants
  exact h

@[simp] theorem State.finish_notifyError (s : State) : s.finish.notifyError = s.notifyError := by
  have h := congrArg State.notifyError s.finish_apartFromGrants
  exact h

@[simp] theorem State.finish_streamLosses (s : State) : s.finish.streamLosses = s.streamLosses := by
  have h := congrArg State.streamLosses s.finish_apartFromGrants
  exact h

@[simp] theorem State.finish_ports (s : State) : s.finish.ports = s.ports := by
  have h := congrArg State.ports s.finish_apartFromGrants
  exact h

@[simp] theorem State.finish_schedule (s : State) : s.finish.schedule = s.schedule := by
  have h := congrArg State.schedule s.finish_apartFromGrants
  exact h

@[simp] theorem State.finish_timebase (s : State) : s.finish.timebase = s.timebase := by
  have h := congrArg State.timebase s.finish_apartFromGrants
  exact h

@[simp] theorem State.finish_orderChoices (s : State) : s.finish.orderChoices = s.orderChoices := by
  have h := congrArg State.orderChoices s.finish_apartFromGrants
  exact h

@[simp] theorem State.finish_pending (s : State) : s.finish.pending = s.pending := by
  have h := congrArg State.pending s.finish_apartFromGrants
  exact h

theorem State.finish_mode (s : State) : s.finish.transfers.mode = s.transfers.mode := by
  have h := congrArg (fun u : State => u.transfers.mode) s.finish_apartFromGrants
  exact h

theorem State.finish_faultAddress (s : State) : s.finish.transfers.faultAddress = s.transfers.faultAddress := by
  have h := congrArg (fun u : State => u.transfers.faultAddress) s.finish_apartFromGrants
  exact h

theorem State.finish_stream (s : State) (n : StreamNo) :
    (s.finish.stream n).apartFromGrants = (s.stream n).apartFromGrants := by
  rw [← State.apartFromGrants_stream, s.finish_apartFromGrants, State.apartFromGrants_stream]

theorem State.finish_heldEvents (s : State) : s.finish.heldEvents = s.heldEvents := by
  have h := congrArg (fun u : State => u.events.holding.map (fun h => h.event)) s.finish_apartFromGrants
  simpa [State.apartFromGrants, State.heldEvents, HeldEvent.apartFromGrants, Function.comp_def] using h

end Sys2Proof.Machine
end

