-- ==== Sys2Proof/Laws/Commands.lean ====
section
/-! SUPPORT. A completion that reaches its requester, the taking of a command and its answer, said once (R118,
R121 to R123, R178). -/

namespace Sys2Proof.Machine

/-- A completion that arrives is handed over with its entry freed, and the step closes with the arbiter. -/
theorem State.complete_arrives (s : State) (e : TransferId) (t : Transfer) (isFor : Transfer → Bool)
    (early handed : Transfer → State → State) (h : s.arrives e t = true) (hf : isFor t = true) :
    s.complete e isFor early handed = (handed t (s.putTransfer e none)).finish := by
  simp only [State.arrives, Bool.and_eq_true, Bool.not_eq_true', beq_iff_eq, bne_iff_ne, ne_eq] at h
  obtain ⟨⟨⟨hp, hm⟩, hq⟩, ht⟩ := h
  simp [State.complete, hp, ht, hf, hm, hq]

/-- A completion of a free entry changes nothing. -/
theorem State.complete_free (s : State) (e : TransferId) (isFor : Transfer → Bool)
    (early handed : Transfer → State → State) (h : s.transfer e = none) : s.complete e isFor early handed = s := by
  unfold State.complete
  split
  · rfl
  · simp [h]

/-- The state in which a command taken from ring index `index` executes. -/
def State.taken (s : State) (e : TransferId) (record : Instr) (seq : BitVec 16) (index : Nat) : State :=
  { s.putTransfer e none with command := { s.command with
      consumer := (s.command.consumer + 1) % s.command.size
      inProgress := some ⟨record, index, seq, [], .nobody⟩ } }

/-- What a command row does: it executes in the state in which it is taken, and the step closes. -/
theorem State.takeCommand_eq (s : State) (e : TransferId) (record : Instr) (seq : BitVec 16) (index : Nat)
    (execute : State → State) (h : s.commandRead e index = true) :
    s.takeCommand e record seq execute = (execute (s.taken e record seq index)).finish := by
  simp only [State.commandRead, Bool.and_eq_true, Bool.not_eq_true', beq_iff_eq, bne_iff_ne, ne_eq,
    Option.any_eq_true] at h
  obtain ⟨⟨⟨hp, hm⟩, hq⟩, t, ht, hr, hi⟩ := h
  have ha : s.arrives e t = true := by simp [State.arrives, hp, hm, hq, ht]
  unfold State.takeCommand State.completeOk
  rw [State.complete_arrives s e t _ _ _ ha (by simp [Transfer.isOf, hr])]
  simp only [hi]
  rfl

/-- The answer of a command that tells nobody, as it stands before the arbiter. -/
theorem State.produceCmdDone_taken (s : State) (e : TransferId) (record : Instr) (seq : BitVec 16) (index : Nat)
    (st : Status) (result : List Byte) :
    (s.taken e record seq index).produceCmdDone st result .nobody = s.answered e record seq index st result .nobody := by
  show (if (s.putTransfer e none).roomFor commandProducer then _ else _) = _
  unfold State.answered
  dsimp only [State.taken]
  cases (s.putTransfer e none).roomFor commandProducer <;> rfl

/-- A command that is answered at its execution leaves its answer, and nothing else but grants. -/
theorem State.takeCommand_answered (s : State) (e : TransferId) (record : Instr) (seq : BitVec 16) (index : Nat)
    (st : Status) (result : List Byte) (execute : State → State) (h : s.commandRead e index = true)
    (hx : execute (s.taken e record seq index) = (s.taken e record seq index).produceCmdDone st result .nobody) :
    (s.answered e record seq index st result .nobody).grantsTo (s.takeCommand e record seq execute) := by
  rw [State.takeCommand_eq s e record seq index execute h, hx, State.produceCmdDone_taken]
  exact State.finish_grantsTo _

/-- The first check that fails decides the status (R121). -/
theorem firstFailure_cons (b : Bool) (st : Status) (rest : List (Bool × Status)) :
    firstFailure ((b, st) :: rest) = if b then firstFailure rest else some st := rfl

end Sys2Proof.Machine
end

