-- ==== Sys2Proof/Laws/Touches.lean ====
section
/-! SUPPORT. What the shared operations can touch: one lemma per operation says which streams and lanes it may
change, and that Engine Control, the Timebase, the register flags, the Transfer Unit's mode and Fault Address, the
claims on the Stream Unit, the free orders and the queue are as they were. -/

namespace Sys2Proof.Machine

/-- `t` differs from `s` at most in the streams and lanes of `touched`, in the Schedule Unit, the Command Unit, the
Event Unit and the Outstanding Transfer Table with its arbiter pointers. -/
structure State.Touches (touched : StreamNo → Prop) (s t : State) : Prop where
  engine : t.engine = s.engine
  pin : t.pin = s.pin
  notifyError : t.notifyError = s.notifyError
  mode : t.transfers.mode = s.transfers.mode
  lead : t.transfers.lead = s.transfers.lead
  faultAddress : t.transfers.faultAddress = s.transfers.faultAddress
  timebase : t.timebase = s.timebase
  streamLosses : t.streamLosses = s.streamLosses
  orderChoices : t.orderChoices = s.orderChoices
  claimChoices : t.claimChoices = s.claimChoices
  pending : t.pending = s.pending
  stream : ∀ m, ¬touched m → t.stream m = s.stream m
  port : ∀ m, ¬touched m → t.port m = s.port m

/-- No stream and no lane. -/
def noStream : StreamNo → Prop := fun _ => False

/-- One stream and its lane. -/
def onlyStream (n : StreamNo) : StreamNo → Prop := fun m => m = n

namespace State.Touches

theorem refl (p : StreamNo → Prop) (s : State) : State.Touches p s s := by constructor <;> intros <;> rfl

theorem trans {p : StreamNo → Prop} {s t u : State} (h : State.Touches p s t) (k : State.Touches p t u) :
    State.Touches p s u where
  engine := k.engine.trans h.engine
  pin := k.pin.trans h.pin
  notifyError := k.notifyError.trans h.notifyError
  mode := k.mode.trans h.mode
  lead := k.lead.trans h.lead
  faultAddress := k.faultAddress.trans h.faultAddress
  timebase := k.timebase.trans h.timebase
  streamLosses := k.streamLosses.trans h.streamLosses
  orderChoices := k.orderChoices.trans h.orderChoices
  claimChoices := k.claimChoices.trans h.claimChoices
  pending := k.pending.trans h.pending
  stream := fun m hm => (k.stream m hm).trans (h.stream m hm)
  port := fun m hm => (k.port m hm).trans (h.port m hm)

theorem mono {p q : StreamNo → Prop} {s t : State} (h : State.Touches p s t) (i : ∀ m, p m → q m) :
    State.Touches q s t :=
  { h with
    stream := fun m hm => h.stream m (fun k => hm (i m k))
    port := fun m hm => h.port m (fun k => hm (i m k)) }

/-- What touches no stream touches at most any. -/
theorem any {s t : State} (h : State.Touches noStream s t) (p : StreamNo → Prop) : State.Touches p s t :=
  h.mono (fun _ k => k.elim)

/-- An operation applied again and again touches what each application does. -/
theorem foldl {α : Type} {p : StreamNo → Prop} (f : State → α → State) (l : List α)
    (h : ∀ s, ∀ a ∈ l, State.Touches p s (f s a)) (s : State) : State.Touches p s (l.foldl f s) := by
  induction l generalizing s with
  | nil => exact refl p s
  | cons a l ih =>
    exact (h s a (by simp)).trans (ih (fun s b hb => h s b (by simp [hb])) (f s a))

end State.Touches

open State.Touches

/-! ### Banks -/

theorem State.putStream_touches (s : State) (n : StreamNo) (c : Stream) :
    State.Touches (onlyStream n) s (s.putStream n c) := by
  constructor <;> try (intros; rfl)
  intro m hm
  exact State.stream_putStream_of_ne s c (fun h => hm h.symm)

theorem State.modifyStream_touches (s : State) (n : StreamNo) (f : Stream → Stream) :
    State.Touches (onlyStream n) s (s.modifyStream n f) :=
  State.putStream_touches _ _ _

theorem State.putPort_touches (s : State) (n : StreamNo) (p : Port) :
    State.Touches (onlyStream n) s (s.putPort n p) := by
  constructor <;> try (intros; rfl)
  intro m hm
  exact State.port_putPort_of_ne s p (fun h => hm h.symm)

theorem State.putTransfer_touches (s : State) (e : TransferId) (t : Option Transfer) :
    State.Touches noStream s (s.putTransfer e t) := by constructor <;> intros <;> rfl

/-! ### The Event Unit and the Schedule Unit -/

theorem State.accept_touches (s : State) (e : Event) : State.Touches noStream s (s.accept e) := by
  constructor <;> intros <;> rfl

theorem State.modifyEntry_touches (s : State) (id : EntryId) (f : ScheduleEntry → ScheduleEntry) :
    State.Touches noStream s (s.modifyEntry id f) := by constructor <;> intros <;> rfl

theorem State.addEntry_touches (s : State) (e : ScheduleEntry) : State.Touches noStream s (s.addEntry e) := by
  constructor <;> intros <;> rfl

theorem State.decideEntry_touches (s : State) (id : EntryId) (st : EntryState) (ev : Event) :
    State.Touches noStream s (s.decideEntry id st ev) := by constructor <;> intros <;> rfl

theorem State.placeClosing_touches (s : State) (e : ScheduleEntry) (ev : Event) :
    State.Touches noStream s (s.placeClosing e ev) := by constructor <;> intros <;> rfl

theorem offerClosingFuel_touches (k : Nat) (s : State) : State.Touches noStream s (offerClosingFuel k s) := by
  induction k generalizing s with
  | zero => exact refl _ s
  | succ k ih =>
    unfold offerClosingFuel
    split
    · exact refl _ s
    · split
      · exact (s.placeClosing_touches _ _).trans (ih _)
      · exact refl _ s

theorem State.offerSchedule_touches (s : State) : State.Touches noStream s s.offerSchedule :=
  offerClosingFuel_touches _ s

theorem State.examineEntry_touches (s : State) (id : EntryId) : State.Touches noStream s (s.examineEntry id) := by
  unfold State.examineEntry
  split
  · exact refl _ s
  · split
    · exact (s.decideEntry_touches _ _ _).trans (State.offerSchedule_touches _)
    · exact refl _ s

theorem State.answerEntry_touches (s : State) (id : EntryId) (n : StreamNo) :
    State.Touches noStream s (s.answerEntry id n) := by
  unfold State.answerEntry
  split
  · exact refl _ s
  · split
    · exact (s.modifyEntry_touches _ _).trans (State.examineEntry_touches _ _)
    · exact refl _ s

theorem State.removeFromEntry_touches (s : State) (id : EntryId) (n : StreamNo) (reason : ClearReason) :
    State.Touches noStream s (s.removeFromEntry id n reason) := by
  unfold State.removeFromEntry
  split
  · exact refl _ s
  · split
    · exact (s.modifyEntry_touches _ _).trans (State.examineEntry_touches _ _)
    · exact refl _ s

theorem State.handRemoval_touches (s : State) (n : StreamNo) (reason : ClearReason) :
    State.Touches noStream s (s.handRemoval n reason) := by
  unfold State.handRemoval
  split
  · exact refl _ s
  · constructor <;> intros <;> rfl

theorem State.clearEntry_touches (s : State) (id : EntryId) (reason : ClearReason) :
    State.Touches noStream s (s.clearEntry id reason) := by
  unfold State.clearEntry
  split
  · exact refl _ s
  · split
    · exact (s.decideEntry_touches _ _ _).trans (State.offerSchedule_touches _)
    · exact refl _ s

theorem State.loseEntries_touches (s : State) (g : GenNo) : State.Touches noStream s (s.loseEntries g) := by
  unfold State.loseEntries
  exact State.Touches.foldl _ _ (fun s id _ => s.clearEntry_touches id _) s

/-! ### Notices -/

theorem State.offerStarveBegin_touches (s : State) (n : StreamNo) (p : Position) :
    State.Touches (onlyStream n) s (s.offerStarveBegin n p) := by
  unfold State.offerStarveBegin
  dsimp only
  split
  · exact ((s.accept_touches _).any _).trans (State.putStream_touches _ _ _)
  · exact State.putStream_touches _ _ _

theorem State.offerStarveEnd_touches (s : State) (n : StreamNo) (p : Position) (k : BitVec 64) :
    State.Touches (onlyStream n) s (s.offerStarveEnd n p k) := by
  unfold State.offerStarveEnd
  dsimp only
  split
  · exact ((s.accept_touches _).any _).trans (State.putStream_touches _ _ _)
  · exact State.putStream_touches _ _ _

theorem State.offerMark_touches (s : State) (n : StreamNo) (tag : BitVec 32) (p : Position) :
    State.Touches (onlyStream n) s (s.offerMark n tag p) := by
  unfold State.offerMark
  dsimp only
  split
  · exact ((s.accept_touches _).any _).trans (State.putStream_touches _ _ _)
  · exact State.putStream_touches _ _ _

/-! ### The Stream Unit -/

theorem State.discardReads_touches (s : State) (n : StreamNo) : State.Touches noStream s (s.discardReads n) := by
  unfold State.discardReads
  exact State.Touches.foldl _ _ (fun s e _ => s.putTransfer_touches e _) s

theorem State.emptyFifo_touches (s : State) (n : StreamNo) : State.Touches (onlyStream n) s (s.emptyFifo n) := by
  unfold State.emptyFifo
  dsimp only
  split
  · exact ((s.discardReads_touches n).any _).trans (State.putStream_touches _ _ _)
  · exact State.putStream_touches _ _ _

theorem State.streamArrived_touches (s : State) (n : StreamNo) : State.Touches noStream s (s.streamArrived n) := by
  constructor <;> intros <;> rfl

theorem State.enterIdle_touches (s : State) (n : StreamNo) : State.Touches (onlyStream n) s (s.enterIdle n) :=
  (s.modifyStream_touches n _).trans ((State.streamArrived_touches _ n).any _)

theorem State.enterClosed_touches (s : State) (n : StreamNo) : State.Touches (onlyStream n) s (s.enterClosed n) :=
  ((s.putStream_touches n _).trans (State.putPort_touches _ n _)).trans ((State.streamArrived_touches _ n).any _)

theorem State.reportPlaced_touches (s : State) (n : StreamNo) (e : Event) :
    State.Touches (onlyStream n) s (s.reportPlaced n e) := by
  unfold State.reportPlaced
  split
  · exact s.modifyStream_touches n _
  · split
    · exact s.enterIdle_touches n
    · exact refl _ s
  · exact refl _ s

theorem State.produce_touches (s : State) (n : StreamNo) (e : Event) (drainRun : Bool) :
    State.Touches (onlyStream n) s (s.produce n e drainRun) := by
  unfold State.produce
  split
  · exact ((s.accept_touches e).any _).trans (State.reportPlaced_touches _ n e)
  · exact s.modifyStream_touches n _

theorem State.placePending_touches (s : State) (n : StreamNo) : State.Touches (onlyStream n) s (s.placePending n) := by
  unfold State.placePending
  split
  · exact refl _ s
  · exact (((s.accept_touches _).any _).trans (State.modifyStream_touches _ n _)).trans
      (State.reportPlaced_touches _ n _)

theorem State.retireHead_touches (s : State) (n : StreamNo) (r : StagedRecord) (st : RetiredStatus) :
    State.Touches (onlyStream n) s (s.retireHead n r st) := by
  unfold State.retireHead
  dsimp only
  refine State.Touches.trans ?_ (State.produce_touches _ n _ _)
  refine State.Touches.trans ?_ (State.modifyStream_touches _ n _)
  split
  · exact (s.handRemoval_touches n _).any _
  · exact refl _ s

theorem State.endStopping_touches (s : State) (n : StreamNo) : State.Touches (onlyStream n) s (s.endStopping n) := by
  unfold State.endStopping
  dsimp only
  split
  · exact s.enterClosed_touches n
  · split
    · split
      · exact (s.enterIdle_touches n).trans ((State.answerEntry_touches _ _ n).any _)
      · exact s.enterIdle_touches n
    · split
      · exact s.enterIdle_touches n
      · exact s.produce_touches n _ _

theorem State.settleStep_touches (s t : State) (n : StreamNo) (h : s.settleStep n = some t) :
    State.Touches (onlyStream n) s t := by
  unfold State.settleStep at h
  dsimp only at h
  split at h
  · cases h
  split at h
  · cases h
    exact (s.putStream_touches n _).trans (State.produce_touches _ n _ _)
  split at h
  · cases h
    exact s.retireHead_touches n _ _
  split at h
  · cases h
    exact (s.putStream_touches n _).trans (State.produce_touches _ n _ _)
  split at h
  · cases h
    exact s.putStream_touches n _
  split at h
  · cases h
    exact s.endStopping_touches n
  · cases h

theorem settleFuel_touches (k : Nat) (n : StreamNo) (s : State) : State.Touches (onlyStream n) s (settleFuel k n s) := by
  induction k generalizing s with
  | zero => exact refl _ s
  | succ k ih =>
    unfold settleFuel
    split
    · exact refl _ s
    · rename_i t h
      exact (s.settleStep_touches t n h).trans (ih t)

theorem State.settle_touches (s : State) (n : StreamNo) : State.Touches (onlyStream n) s (s.settle n) :=
  settleFuel_touches _ n s

theorem State.enterFaulted_touches (s : State) (n : StreamNo) (cause : FaultCause) (p : Position) :
    State.Touches (onlyStream n) s (s.enterFaulted n cause p) := by
  unfold State.enterFaulted
  dsimp only
  exact (((s.handRemoval_touches n _).any _).trans (State.emptyFifo_touches _ n)).trans
    (State.modifyStream_touches _ n _)

theorem State.fault_touches (s : State) (n : StreamNo) (cause : FaultCause) (p : Position) :
    State.Touches (onlyStream n) s (s.fault n cause p) :=
  (s.enterFaulted_touches n cause p).trans (State.settle_touches _ n)

theorem State.enterStopping_touches (s : State) (n : StreamNo) (d : Destination) (o : Option StopOrigin)
    (a : Option EntryId) : State.Touches (onlyStream n) s (s.enterStopping n d o a) :=
  (s.emptyFifo_touches n).trans (State.modifyStream_touches _ n _)

/-! ### The Command Unit -/

/-- The stream that a placed CMD_DONE may release (R137). -/
def Tell.touched : Tell → StreamNo → Prop
  | .drain n => onlyStream n
  | _ => noStream

theorem State.cmdDonePlaced_touches (s : State) (tell : Tell) : State.Touches tell.touched s (s.cmdDonePlaced tell) := by
  unfold State.cmdDonePlaced
  have ready (p : StreamNo → Prop) : State.Touches p s
      { s with command := { s.command with phase := .ready, inProgress := none, slot := none } } := by
    constructor <;> intros <;> rfl
  cases tell with
  | nobody => exact ready _
  | entry id =>
    exact (ready _).trans ((State.modifyEntry_touches _ _ _).trans (State.offerSchedule_touches _))
  | drain n =>
    dsimp only [Tell.touched]
    refine State.Touches.trans ?_ (State.settle_touches _ n)
    split
    · exact ((ready _).trans (State.putStream_touches _ n _)).trans (State.placePending_touches _ n)
    · exact (ready _).trans (State.putStream_touches _ n _)

theorem State.produceCmdDone_touches (s : State) (st : Status) (result : List Byte) (tell : Tell) :
    State.Touches tell.touched s (s.produceCmdDone st result tell) := by
  unfold State.produceCmdDone
  split
  · exact refl _ s
  · dsimp only
    split
    · exact ((s.accept_touches _).any _).trans (State.cmdDonePlaced_touches _ tell)
    · constructor <;> intros <;> rfl

theorem State.examineCommand_touches (s : State) : State.Touches noStream s s.examineCommand := by
  unfold State.examineCommand
  split
  · split
    · exact refl _ s
    · exact s.produceCmdDone_touches _ _ .nobody
  · exact refl _ s

theorem State.settleStream_touches (s : State) (n : StreamNo) : State.Touches (onlyStream n) s (s.settleStream n) :=
  (s.settle_touches n).trans ((State.examineCommand_touches _).any _)

theorem State.awaitCompletion_touches (s : State) (result : List Byte) (streams : StreamSet) (entries : List EntryId) :
    State.Touches noStream s (s.awaitCompletion result streams entries) := by constructor <;> intros <;> rfl

/-! ### The tick of one stream -/

theorem State.openPeriod_touches (s : State) (n : StreamNo) (frame : List Byte) :
    State.Touches (onlyStream n) s (s.openPeriod n frame) :=
  s.putPort_touches n _

theorem State.idlePeriod_touches (s : State) (n : StreamNo) : State.Touches (onlyStream n) s (s.idlePeriod n) :=
  s.openPeriod_touches n _

theorem State.endStarveRun_touches (s : State) (n : StreamNo) (t : Position) :
    State.Touches (onlyStream n) s (s.endStarveRun n t) := by
  unfold State.endStarveRun
  dsimp only
  refine State.Touches.trans ?_ (State.modifyStream_touches _ n _)
  split
  · exact s.offerStarveEnd_touches n _ _
  · exact refl _ s

theorem State.starvedTick_touches (s : State) (n : StreamNo) (t : Position) :
    State.Touches (onlyStream n) s (s.starvedTick n t) := by
  unfold State.starvedTick
  dsimp only
  refine (s.modifyStream_touches n Stream.countStarved).trans ?_
  split
  · exact State.fault_touches _ n _ _
  · refine State.Touches.trans ?_ (State.modifyStream_touches _ n _)
    split
    · exact State.offerStarveBegin_touches _ n _
    · exact refl _ _

theorem State.markFirst_touches (s : State) (n : StreamNo) (r : StagedRecord) (first : Bool) (t : Position) :
    State.Touches (onlyStream n) s (s.markFirst n r first t) := by
  unfold State.markFirst
  split
  · exact s.offerMark_touches n _ _
  · exact refl _ s

theorem State.passFrame_touches (s : State) (n : StreamNo) (t : Position) (p : Place) (rest : List Place) :
    State.Touches (onlyStream n) s (s.passFrame n t p rest) := by
  unfold State.passFrame
  dsimp only
  refine State.Touches.trans ?_ (State.endStarveRun_touches _ n t)
  split
  · exact ((s.openPeriod_touches n _).trans (State.modifyStream_touches _ n _)).trans (State.markFirst_touches _ n _ _ _)
  · exact (s.openPeriod_touches n _).trans (State.modifyStream_touches _ n _)

theorem State.outputTick_touches (s : State) (n : StreamNo) (t : Position) :
    State.Touches (onlyStream n) s (s.outputTick n t) := by
  unfold State.outputTick
  dsimp only
  split
  · split
    · exact s.passFrame_touches n t _ _
    · exact (s.openPeriod_touches n _).trans (State.starvedTick_touches _ n t)
  · exact (s.openPeriod_touches n _).trans (State.starvedTick_touches _ n t)

theorem State.assignFrame_touches (s : State) (n : StreamNo) (t : Position) (r : StagedRecord) (frame : List Byte) :
    State.Touches (onlyStream n) s (s.assignFrame n t r frame) := by
  unfold State.assignFrame
  dsimp only
  exact ((s.modifyStream_touches n _).trans (State.markFirst_touches _ n _ _ _)).trans
    (State.endStarveRun_touches _ n t)

theorem State.captureTick_touches (s : State) (n : StreamNo) (t : Position) (frame : List Byte) :
    State.Touches (onlyStream n) s (s.captureTick n t frame) := by
  unfold State.captureTick
  dsimp only
  split
  · exact s.starvedTick_touches n t
  · split
    · exact s.assignFrame_touches n t _ _
    · exact s.starvedTick_touches n t

theorem State.runTick_touches (s : State) (n : StreamNo) (t : Position) (bits : List Bool) :
    State.Touches (onlyStream n) s (s.runTick n t bits) := by
  unfold State.runTick
  dsimp only
  split
  · exact s.outputTick_touches n t
  · exact (s.openPeriod_touches n _).trans (State.captureTick_touches _ n t _)

theorem State.tickStream_touches (bits : List Bool) (t : Position) (s : State) (n : StreamNo) :
    State.Touches (onlyStream n) s (s.tickStream bits t n) := by
  unfold State.tickStream
  dsimp only
  split
  · exact refl _ s
  · split
    · split
      · exact ((((s.modifyStream_touches n _).trans (State.runTick_touches _ n t bits)).trans
          (State.settle_touches _ n)).trans ((State.answerEntry_touches _ _ n).any _)).trans
          ((State.examineCommand_touches _).any _)
      · exact s.idlePeriod_touches n
    · exact s.idlePeriod_touches n
  all_goals try exact s.idlePeriod_touches n
  all_goals
    split
    · exact ((s.idlePeriod_touches n).trans (State.enterStopping_touches _ n _ _ _)).trans
        (State.settleStream_touches _ n)
    · split
      · exact (s.openPeriod_touches n _).trans (State.modifyStream_touches _ n _)
      · exact (s.runTick_touches n t bits).trans (State.settleStream_touches _ n)

end Sys2Proof.Machine
end

