-- ==== Sys2Proof/Tests/Slice0.lean ====
section
/-! SUPPORT. Tests of the model: ill-formed terms that WellFormed refuses, records written out byte by byte from
chapter 10, single steps whose results are those of the spec's rules, and for each statement with hypotheses a
state that meets them. -/

namespace Sys2Proof.Tests

-- the kernel evaluates every test; one after another, they need one thread
set_option Elab.async false

open Machine

/-! ### States the tests start from -/

def rootBlock : RootBlock := ⟨0x10000, 0x20000, 16, 64, 4, 0, 200, 0⟩

/-- ACTIVE with the Root Block loaded and nothing opened. -/
def active : State :=
  { State.reset with
    engine := { resetEngine with state := .active, root := some rootBlock }
    transfers := { resetTransfers with mode := .issue }
    command := { resetCommand with base := 0x10000 }
    events := { resetEvents with base := 0x20000, threshold := 4, holdoff := 200 } }

/-- The engine waits for its Root Block. -/
def loading : State :=
  { State.reset with
    engine := { resetEngine with state := .loading, rootPointer := 0x8000 }
    transfers := { resetTransfers with mode := .issue } }.putTransfer 0
      (some ⟨.rootBlock, .rootBlock, false, 0x8000, 64, [], false⟩)

/-- The state after a step; a step of this block always answers next. -/
def after (i : Instr) (s : State) : State :=
  match exec i s with
  | .next t => t
  | .fault _ => s
  | .refused _ => s

/-- The read of the command record at ring index 0 is outstanding at entry 0. -/
def reading (s : State) : State :=
  { s with command := { s.command with producer := 1, phase := .fetching } }.putTransfer 0
    (some ⟨.commandRecord, .slot 0, false, 0x10000, 64, [], false⟩)

/-- An OUTPUT stream of 2 slots of 16 bits in IDLE. -/
def opened : Stream :=
  { closedStream with
    state := .idle
    slots := 2
    ringBase := 0x30000
    lastFrame := [0, 0, 0, 0] }

/-- RG0 RUNNING at position 100 on OSC_A, `edges` of its 512 reference edges counted. -/
def clockedAt (edges : Nat) (s : State) : State :=
  s.putGenerator 0 { resetGenerator with state := .running, position := 100, edges := edges }

/-- RG0 RUNNING at position 100; the next edge is a tick. -/
def clocked : State → State := clockedAt 511

/-- A DATA record of 4 frames at 5000h, tag 9. -/
def dataRecord : StreamRecord := ⟨1, 0, 4, 0, 9, 0x5000⟩

/-- The record staged from ring index 0, all its frames fetched. -/
def stagedData : StagedRecord := ⟨dataRecord, 0, none, 0, 4, 0, none, 0, false, false, none⟩

/-- A frame of the staged record whose bytes have arrived. -/
def frame (k : Nat) : Place := ⟨0, 0, k, false, [some 1, some 2, some 3, some 4], 0, 0, 0, false⟩

/-- A run that has used tick 100, with four frames ready. -/
def runningStream : Stream :=
  { opened with
    state := .running
    producer := 1
    consumer := 1
    startPosition := some 100
    starvedFrames := 1
    starveRun := 0
    staging := [stagedData]
    fifo := [frame 0, frame 1, frame 2, frame 3] }

/-- RG0 runs and stream 0 plays. -/
def playing : State := (clocked active).putStream 0 runningStream

/-- RG0 runs and stream 0 has nothing to play. -/
def hungry : State := playing.putStream 0 { runningStream with staging := [], fifo := [] }

/-- A CAPTURE stream of 2 slots of 16 bits with one staged record of 4 frames. -/
def capturing : State :=
  playing.putStream 0 { runningStream with
    direction := .capture
    staging := [{ stagedData with progress := 0 }]
    fifo := [] }

/-- A full Event Holding List. -/
def crowded (s : State) : State :=
  { s with events := { s.events with holding := List.replicate 8 ⟨.referenceLost 3 0, false⟩ } }

/-- The engine is QUIESCING, with `lead` completions still taken in ISSUE. -/
def quiescing (lead : Nat) (s : State) : State :=
  { s with
    engine := { s.engine with state := .quiescing }
    transfers := { s.transfers with mode := if lead = 0 then .settle else .issue, lead := lead } }

/-- A transfer of stream 0 is outstanding at entry 1. -/
def moving (s : State) (requester : Requester) (write : Bool) : State :=
  s.putTransfer 1 (some ⟨requester, .frames 0 0 0, write, 0x5000, 8, [], false⟩)

/-- The read of a stream record is outstanding at entry 2. -/
def fetching (s : State) : State :=
  s.putTransfer 2 (some ⟨.streamRecord 0, .slot 1, false, 0x30020, 32, [], false⟩)

def scheduled (kind : EntryKind) (condition : Condition) (fire : Option Position) : ScheduleEntry :=
  ⟨5, kind, 0, condition, fire, false, 1, 0, none, .waiting, true, none, []⟩

/-- Entry 5 of the Schedule Table names stream 0. -/
def withEntry (s : State) (x : ScheduleEntry) : State :=
  { s with schedule := { s.schedule with entries := [x], idCounter := 6 } }.modifyStream 0
    (fun c => { c with scheduleEntry := some 5 })

/-- Stream 0 is ARMED by a START entry that fires at the next tick. -/
def armed : State :=
  withEntry ((clocked active).putStream 0 { opened with state := .armed }) (scheduled .start .next (some 101))

/-- Stream 0 runs and a STOP entry fires at the next tick. -/
def stopping : State := withEntry playing (scheduled .stop .atPosition (some 101))

def quarter : GeneratorParams := ⟨0, 0, 512, 0, 10⟩
def openParams : OpenParams := ⟨0, 0, 0, 2, 16, 0, 0, 0, 0, 0x30000, 16, 3⟩
def schedule (condition : BitVec 8) (target : Position) : ScheduleParams := ⟨1, condition, 0, target⟩
def lanes : List (List Bool) := List.replicate 8 (List.replicate 32 true)

/-! ### WellFormed refuses each ill-formed term -/

theorem test_wf_startNext : WellFormed (.startNext 0 0 (schedule condAt 0)) = false := by decide +kernel
theorem test_wf_startAt : WellFormed (.startAt 0 0 (schedule condNext 0)) = false := by decide +kernel
theorem test_wf_startTrigger : WellFormed (.startTrigger 0 0 (schedule condAt 0)) = false := by decide +kernel
theorem test_wf_stopNow : WellFormed (.stopNow 0 0 (schedule condDrain 0)) = false := by decide +kernel
theorem test_wf_stopAt : WellFormed (.stopAt 0 0 (schedule condNow 0)) = false := by decide +kernel
theorem test_wf_stopTrigger : WellFormed (.stopTrigger 0 0 (schedule condNow 0)) = false := by decide +kernel
theorem test_wf_stopDrain : WellFormed (.stopDrain 0 0 (schedule condNow 0)) = false := by decide +kernel
theorem test_wf_unknownCommandKind : WellFormed (.unknownCommandKind 0 0 10) = false := by decide +kernel
theorem test_wf_controlRingNotify : WellFormed (.controlRingNotify 0x00010000) = false := by decide +kernel
theorem test_wf_streamRingNotify :
    WellFormed (.streamRingNotify 0x00000003) = false ∧ WellFormed (.streamRingNotify 0x00090003) = false := by
  decide +kernel
theorem test_wf_eventRingRelease : WellFormed (.eventRingRelease 0x00080003) = false := by decide +kernel
theorem test_wf_enable : WellFormed (.enable 4) = false ∧ WellFormed (.enable 3) = false := by decide +kernel
theorem test_wf_engineDisable : WellFormed (.engineDisable 5) = false ∧ WellFormed (.engineDisable 2) = false := by
  decide +kernel
theorem test_wf_reset : WellFormed (.reset 1) = false := by decide +kernel
theorem test_wf_interruptEnable : WellFormed (.interruptEnable 6) = false := by decide +kernel
theorem test_wf_notifyErrorClear : WellFormed (.notifyErrorClear 0x0FF) = false := by decide +kernel
theorem test_wf_registerWriteDiscarded : WellFormed (.registerWriteDiscarded 0x04 4 0) = false := by decide +kernel
theorem test_wf_dataReadComplete : WellFormed (.dataReadComplete 0 (List.replicate 257 0)) = false := by decide +kernel
theorem test_wf_tick : WellFormed (.tick 0 []) = false := by decide +kernel

/-! ### Records written out from sections 10.2 to 10.4 -/

theorem test_decode_setGenerator :
    decodeCommandRecord 3
      ([1, 0, 0x34, 0x12, 0, 0, 0, 0, 2, 3, 0x00, 0x02, 0x80, 0x96, 0x98, 0x00, 10] ++ List.replicate 47 0)
      = .setGenerator 3 0x1234 ⟨2, 3, 512, 10000000, 10⟩ := by decide +kernel

theorem test_decode_openStream :
    decodeCommandRecord 0
      ([4, 0, 1, 0, 0, 0, 0, 0, 7, 1, 3, 8, 32, 1, 1, 1, 2, 0, 0, 0, 0, 0, 0, 0,
        0x20, 0, 0, 0, 1, 0, 0, 0, 0x00, 0x10, 0xFF, 0x0F] ++ List.replicate 28 0)
      = .openStream 0 1 ⟨7, 1, 3, 8, 32, 1, 1, 1, 2, 0x100000020, 4096, 4095⟩ := by decide +kernel

theorem test_decode_startAt :
    decodeCommandRecord 0
      ([6, 0, 2, 0, 0, 0, 0, 0, 0x81, 1, 0, 0, 0, 0, 0, 0, 0xE8, 3, 0, 0, 0, 0, 0, 0] ++ List.replicate 40 0)
      = .startAt 0 2 ⟨0x81, 1, 0, 1000⟩ := by decide +kernel

theorem test_decode_stopDrain :
    decodeCommandRecord 0 ([7, 0, 3, 0, 0, 0, 0, 0, 4, 4] ++ List.replicate 54 0) = .stopDrain 0 3 ⟨4, 4, 0, 0⟩ := by
  decide +kernel

theorem test_decode_query :
    decodeCommandRecord 0 ([10, 0, 4, 0, 0, 0, 0, 0, 1, 2, 1] ++ List.replicate 53 0) = .query 0 4 1 2 1 := by
  decide +kernel

theorem test_decode_unknown :
    decodeCommandRecord 0 ([11, 0, 5, 0] ++ List.replicate 60 0) = .unknownCommandKind 0 5 11 := by decide +kernel

theorem test_decode_streamRecord :
    decodeStreamRecord ([1, 2, 0x00, 0x01, 3, 0, 0, 0, 9, 0, 0, 0, 0, 0, 0, 0, 0x00, 0x50, 0, 0, 0, 0, 0, 0x80]
      ++ List.replicate 8 0) = ⟨1, 2, 256, 3, 9, 0x8000000000005000⟩ := by decide +kernel

theorem test_decode_rootBlock :
    decodeRootBlock ([0, 0, 1, 0, 0, 0, 0, 0, 0, 0, 2, 0, 0, 0, 0, 0, 16, 0, 64, 0, 4, 0, 200, 0]
      ++ List.replicate 40 0) = rootBlock := by decide +kernel

theorem test_decode_registerWrites :
    decodeRegisterWrite 0x04 4 5 = .enable 5 ∧ decodeRegisterWrite 0x04 4 4 = .engineDisable 4
      ∧ decodeRegisterWrite 0x04 4 3 = .reset 3 ∧ decodeRegisterWrite 0x18 4 0x00090007 = .eventRingRelease 0x00090007
      ∧ decodeRegisterWrite 0x18 4 0x00080007 = .streamRingNotify 0x00080007
      ∧ decodeRegisterWrite 0x18 2 0x00080007 = .registerWriteDiscarded 0x18 2 0x00080007 := by decide +kernel

/-- A CMD_DONE entry byte by byte (section 10.5): kind 1, cycle flag, status PENDING, sequence number and index. -/
theorem test_encode_cmdDone :
    encodeEvent true (.cmdDone 0x1234 5 .pending [0xAA]) = [1, 1, 1, 0, 0x34, 0x12, 5, 0, 0xAA] ++ List.replicate 23 0 := by
  decide +kernel

/-! ### Single steps, a row at a time -/

/-- R124: NOP is answered OK with a zero result. -/
theorem test_nop : (after (.nop 0 7) (reading active)).heldEvents = [.cmdDone 7 0 .ok (List.replicate 16 0)] := by
  decide +kernel

/-- R75, R125: 24,576,000 / 64 is 384,000, the highest rate, and a divider of 63 is refused. -/
theorem test_setGenerator :
    ((after (.setGenerator 0 1 { quarter with divider := 64 }) (reading active)).generator 0).divider = 64
      ∧ (after (.setGenerator 0 1 { quarter with divider := 63 }) (reading active)).heldEvents
        = [.cmdDone 1 0 .badParam (List.replicate 16 0)] := by decide +kernel

/-- R77, R82: a generator on REF0 starts at position 0 with its monitor armed. -/
theorem test_enableGenerator :
    (after (.enableGenerator 0 1 1) (reading (active.putGenerator 1
      { resetGenerator with source := .ref0, lossWindow := 3, position := 77 }))).generator 1
      = { resetGenerator with source := .ref0, lossWindow := 3, state := .running, monitor := some 3 } := by decide +kernel

/-- R127: the result carries the held position. -/
theorem test_disableGenerator :
    (after (.disableGenerator 0 1 0) (reading (clocked active))).heldEvents
      = [.cmdDone 1 0 .ok ([100] ++ List.replicate 15 0)] := by decide +kernel

/-- R8: both indices stand at the start index; R128: an open stream is refused. -/
theorem test_openStream :
    ((after (.openStream 0 1 openParams) (reading active)).stream 0).consumer = 3
      ∧ (after (.openStream 0 1 openParams) (reading playing)).heldEvents
        = [.cmdDone 1 0 .badState (List.replicate 16 0)] := by decide +kernel

/-- R129: an IDLE stream with nothing in flight closes at once; a running one is refused. -/
theorem test_closeStream :
    ((after (.closeStream 0 1 0) (reading (active.putStream 0 opened))).stream 0).state = .closed
      ∧ ((after (.closeStream 0 1 0) (reading playing)).stream 0).state = .running := by decide +kernel

/-- R97, R131: NEXT fires at the next position; the result gives the id and the fire position. -/
theorem test_startNext :
    (after (.startNext 0 1 (schedule condNext 0)) (reading ((clocked active).putStream 0 opened))).heldEvents
      = [.cmdDone 1 0 .pending [0, 0, 0, 0, 0, 0, 0, 0, 101, 0, 0, 0, 0, 0, 0, 0]] := by decide +kernel

/-- R97: a target that the position has reached is late and fires at the next position. -/
theorem test_startAt :
    ((after (.startAt 0 1 (schedule condAt 100)) (reading ((clocked active).putStream 0 opened))).schedule.entries.map
      (fun x => (x.firePosition, x.late))) = [(some 101, true)] := by decide +kernel

/-- R130: TRIGGER on a line with selection NONE is BAD_STATE. -/
theorem test_startTrigger :
    (after (.startTrigger 0 1 (schedule condTrigger 0)) (reading ((clocked active).putStream 0 opened))).heldEvents
      = [.cmdDone 1 0 .badState (List.replicate 16 0)] := by decide +kernel

/-- R16, R66: the FIFO is emptied; the record that stood in it retires FLUSHED, and STOP_DONE precedes the CMD_DONE. -/
theorem test_stopNow :
    (after (.stopNow 0 1 (schedule condNow 0)) (reading playing)).heldEvents
      = [.bufferDone 0 9 0 .flushed none 0 none false, .streamStopDone 0 0 .command 100,
        .cmdDone 1 0 .ok ([1] ++ List.replicate 15 0)] := by decide +kernel

/-- R135: the stream that a STOP entry names keeps its state and takes the id. -/
theorem test_stopAt :
    let c := (after (.stopAt 0 1 (schedule condAt 200)) (reading playing)).stream 0
    (c.state, c.scheduleEntry) = (.running, some 0) := by decide +kernel

/-- R132: a named stream that is not in a running state is refused. -/
theorem test_stopTrigger :
    (after (.stopTrigger 0 1 (schedule condTrigger 0)) (reading (active.putStream 0 opened))).heldEvents
      = [.cmdDone 1 0 .badState (List.replicate 16 0)] := by decide +kernel

/-- R14, R137: nothing left to drain, the answer first and then STOP_DONE with reason DRAIN. -/
theorem test_stopDrain :
    (after (.stopDrain 0 1 (schedule condDrain 0)) (reading hungry)).heldEvents
      = [.cmdDone 1 0 .pending ([1, 0, 1, 0] ++ List.replicate 12 0), .streamStopDone 0 0 .drain 100] := by decide +kernel

/-- R106, R138: the entry is cleared, the ARMED stream is IDLE and the answer follows. -/
theorem test_cancel :
    let t := after (.cancel 0 1 5) (reading armed)
    t.heldEvents = [.entryCleared 5 .start .cancelled, .cmdDone 1 0 .ok ([5, 0, 1] ++ List.replicate 13 0)]
      ∧ (t.stream 0).state = .idle := by decide +kernel

/-- R139: line 4 is out of range. -/
theorem test_setTrigger :
    ((after (.setTrigger 0 1 3 2 1) (reading active)).line 3).selection = .falling
      ∧ (after (.setTrigger 0 1 4 1 1) (reading active)).heldEvents
        = [.cmdDone 1 0 .badParam (List.replicate 16 0)] := by decide +kernel

/-- R140, R141: the FRAMES and STARVE pages; page 4 names nothing. -/
theorem test_query :
    (after (.query 0 1 0 0 3) (reading playing)).heldEvents = [.cmdDone 1 0 .ok ([1] ++ List.replicate 15 0)]
      ∧ (after (.query 0 1 0 0 4) (reading playing)).heldEvents
        = [.cmdDone 1 0 .badParam (List.replicate 16 0)] := by decide +kernel

/-- R121: a kind that names no command is refused with UNKNOWN. -/
theorem test_unknownCommandKind :
    (after (.unknownCommandKind 0 1 200) (reading active)).heldEvents
      = [.cmdDone 1 0 .unknown (List.replicate 16 0)] := by decide +kernel

/-- R119, R189: the failed read halts the engine. -/
theorem test_controlRingAccess :
    let t := after (.controlRingAccess 0) (reading active)
    (t.engine.state, t.engine.cause, t.transfers.faultAddress) = (.halted, .controlRingAccess, 0x10000) := by
  decide +kernel

/-- R117: the notify has the first record of the Control Ring read. -/
theorem test_controlRingNotify :
    (after (.controlRingNotify 2) active).transfer 0 = some ⟨.commandRecord, .slot 0, false, 0x10000, 64, [], false⟩ := by
  decide +kernel

/-- R30: the notify has the first record of the stream's ring read; R171: a CLOSED stream has none. -/
theorem test_streamRingNotify :
    (after (.streamRingNotify 0x00010002) (active.putStream 0 opened)).transfer 0
        = some ⟨.streamRecord 0, .slot 0, false, 0x30000, 32, [], false⟩
      ∧ (after (.streamRingNotify 0x00010002) active).notifyError = true := by decide +kernel

/-- R159: a release frees the entries up to the index. -/
theorem test_eventRingRelease :
    (after (.eventRingRelease 0x00090003) { active with events := { active.events with posted := 5 } }).events.posted
      = 2 := by decide +kernel

/-- R186: the read of the 64 bytes at Root Pointer; a pointer that is no multiple of 64 halts. -/
theorem test_enable :
    (after (.enable 1) { State.reset with engine := { resetEngine with rootPointer := 0x8000 } }).transfer 0
        = some ⟨.rootBlock, .rootBlock, false, 0x8000, 64, [], false⟩
      ∧ (after (.enable 1) { State.reset with engine := { resetEngine with rootPointer := 0x8020 } }).engine.cause
        = .rootInvalid := by decide +kernel

/-- R191, R192: with a transfer outstanding the engine is QUIESCING, without one OFF. -/
theorem test_engineDisable :
    (after (.engineDisable 0) loading).engine.state = .quiescing
      ∧ (after (.engineDisable 4) active).engine = { resetEngine with interruptEnable := true } := by decide +kernel

/-- R193: every block has its reset values. -/
theorem test_reset : after (.reset 7) playing = State.reset := by decide +kernel

/-- R193: while the pin is asserted the window reads 0 and discards writes. -/
theorem test_resetPin :
    (after .resetPin playing).readWindow 0 4 = 0 ∧ (after (.enable 1) (after .resetPin playing)).engine.state = .off := by
  decide +kernel

/-- R193, R194: with the pin released Identity reads 24081C01h. -/
theorem test_resetPinRelease : (after .resetPinRelease (after .resetPin playing)).readWindow 0 4 = 0x24081C01 := by
  decide +kernel

/-- R165: setting INTERRUPT_ENABLE while PENDING is set asserts the line. -/
theorem test_interruptEnable :
    (after (.interruptEnable 5) { active with events := { active.events with pending := true } }).lineLevel = true := by
  decide +kernel

/-- R171: bit 8 clears NOTIFY_ERROR. -/
theorem test_notifyErrorClear : (after (.notifyErrorClear 0x100) { active with notifyError := true }).notifyError = false := by
  decide +kernel

/-- R194: the high word leaves the low half; ACTIVE discards the write. -/
theorem test_rootPointerWrite :
    (after (.rootPointerWrite true 0x12) { State.reset with engine := { resetEngine with rootPointer := 0x8000 } }).engine.rootPointer
        = 0x1200008000
      ∧ (after (.rootPointerWrite false 0x40) active).engine.rootPointer = 0 := by decide +kernel

/-- R168: a 64-bit write reaches no register. -/
theorem test_registerWriteDiscarded : after (.registerWriteDiscarded 0x10 8 0x40) State.reset = State.reset := by
  decide +kernel

/-- R187: a Control Ring of 8 entries is too small. -/
theorem test_rootBlockLoad :
    (after (.rootBlockLoad 0 rootBlock) loading).engine.state = .active
      ∧ (after (.rootBlockLoad 0 { rootBlock with controlSize := 8 }) loading).engine.cause = .rootInvalid := by
  decide +kernel

/-- R186, R189. -/
theorem test_rootAccess :
    let t := after (.rootAccess 0) loading
    (t.engine.cause, t.engine.halt, t.transfers.faultAddress) = (.rootAccess, true, 0x8000) := by decide +kernel

/-- R55: the second frame of the read fills the place at pass 0, frame 1. -/
theorem test_dataReadComplete :
    (((after (.dataReadComplete 1 [10, 11, 12, 13, 14, 15, 16, 17])
      (moving (playing.putStream 0 { runningStream with
        fifo := [reservedPlace 4 0 0 0, reservedPlace 4 0 0 1] }) (.streamData 0) false)).stream 0).fifo.map
          (fun p => p.bytes)) = [[some 10, some 11, some 12, some 13], [some 14, some 15, some 16, some 17]] := by
  decide +kernel

/-- R19, R56: the stream faults, STREAM_FAULT first, and its record retires ABORTED. -/
theorem test_dataReadError :
    (after (.dataReadError 1) (moving (playing.putStream 0 { runningStream with
      staging := [{ stagedData with outstanding := 1 }] }) (.streamData 0) false)).heldEvents
      = [.streamFault 0 .dataAccess 100, .bufferDone 0 9 0 .aborted none 0 none false] := by decide +kernel

/-- R181: taken in ISSUE while Engine Control is QUIESCING, the failed read sets Fault Address and nothing is reported. -/
theorem test_dataReadError_quiesce :
    let t := after (.dataReadError 1) (moving (reading (quiescing 2 playing)) (.streamData 0) false)
    (t.transfers.faultAddress, t.transfers.mode, (t.stream 0).state, t.heldEvents) = (0x5000, .issue, .faulted, []) := by
  decide +kernel

/-- R62: two written frames leave the FIFO and count as moved. -/
theorem test_dataWriteComplete :
    let t := after (.dataWriteComplete 1) (moving (capturing.putStream 0 { capturing.stream 0 with
      staging := [{ stagedData with outstanding := 1 }]
      fifo := [{ frame 0 with issued := 4, writes := 1 }, { frame 1 with issued := 4, writes := 1 }] }) (.streamData 0) true)
    (t.stream 0).fifo = [] ∧ (t.stream 0).staging.map (fun r => r.moved) = [2] := by decide +kernel

/-- R62: a failed write gives its frames up and faults the stream. -/
theorem test_dataWriteError :
    ((after (.dataWriteError 1) (moving (capturing.putStream 0 { capturing.stream 0 with
      staging := [{ stagedData with outstanding := 1 }]
      fifo := [{ frame 0 with issued := 4, writes := 1 }] }) (.streamData 0) true)).stream 0).state = .faulted := by
  decide +kernel

/-- R31: the record joins the list and the consumer index advances. -/
theorem test_recordReadComplete :
    let c := (after (.recordReadComplete 2 dataRecord) (fetching playing)).stream 0
    (c.staging.length, c.consumer) = (2, 2) := by decide +kernel

/-- R33: nothing is staged and the stream faults. -/
theorem test_recordReadError :
    let c := (after (.recordReadError 2) (fetching playing)).stream 0
    (c.faultCause, c.consumer) = (some .ringAccess, 1) := by decide +kernel

/-- An event write of one REFERENCE_LOST is outstanding at entry 3. -/
def written : State :=
  { active with events := { active.events with
      holding := [⟨.referenceLost 3 0, true⟩], inFlight := 1, writeIndex := 1 } }.putTransfer 3
    (some ⟨.eventWrite, .entries 1, true, 0x20000, 32, [], false⟩)

/-- R156, R161: one counted event below the threshold starts the holdoff timer. -/
theorem test_eventWriteComplete :
    let e := (after (.eventWriteComplete 3) written).events
    (e.posted, e.inFlight, e.count, e.timerRunning, e.pending) = (1, 0, 1, true, false) := by decide +kernel

/-- R157. -/
theorem test_eventRingAccess : (after (.eventRingAccess 3) written).engine.cause = .eventRingAccess := by decide +kernel

/-- R57: the head frame passes the lane at tick 101; R58: with none ready the stream is STARVED. -/
theorem test_tick :
    let c := (after (.tick 0 lanes) playing).stream 0
    (c.dataFrames, c.lastFrame, c.fifo.length) = (1, [1, 2, 3, 4], 3)
      ∧ (after (.tick 0 lanes) hungry).heldEvents = [.starveBegin 0 101 0] := by decide +kernel

/-- R10, R100: the run starts at tick 101 and START_DONE carries it. -/
theorem test_tick_starts :
    (after (.tick 0 lanes) armed).heldEvents = [.starveBegin 0 101 0, .startDone 5 0 1 101 false] := by decide +kernel

/-- R83, R86: the generator is LOST at position 100. -/
theorem test_referenceMonitorExpiry :
    let t := after (.referenceMonitorExpiry 0) (active.putGenerator 0
      { resetGenerator with state := .running, position := 100, source := .ref0, monitor := some 10 })
    ((t.generator 0).state, t.heldEvents) = (.lost, [.referenceLost 0 100]) := by decide +kernel

/-- R84: the running stream faults with REFERENCE_LOST at the last position. -/
theorem test_streamReferenceLoss :
    (after (.streamReferenceLoss 0) { playing with streamLosses := [⟨0, 100⟩] }).heldEvents.head?
      = some (.streamFault 0 .referenceLost 100) := by decide +kernel

/-- R107: the WAITING entry is cleared. -/
theorem test_scheduleReferenceLoss :
    (after (.scheduleReferenceLoss 0) { armed with schedule := { armed.schedule with losses := [⟨0, 100⟩] } }).heldEvents
      = [.entryCleared 5 .start .referenceLost] := by decide +kernel

/-- R104, R105: the last stream of an entry is removed. -/
theorem test_removalClaim :
    (after (.removalClaim 0) { stopping with schedule := { stopping.schedule with
      removals := [⟨5, 0, .streamsLeft⟩] } }).heldEvents = [.entryCleared 5 .stop .streamsLeft] := by decide +kernel

/-- R90, R98: the edge makes the entry due at the next tick. -/
theorem test_triggerEdge :
    ((after (.triggerEdge 0 .rising) ((withEntry ((clocked active).putStream 0 { opened with state := .armed })
      (scheduled .start (.trigger 0) none)).putLine 0 ⟨.rising, false, 0⟩)).schedule.entries.map (fun x => x.firePosition))
      = [some 101] := by decide +kernel

/-- R163. -/
theorem test_holdoffTimerExpiry :
    (after .holdoffTimerExpiry { active with events := { active.events with count := 2, timerRunning := true } }).events.pending
      = true := by decide +kernel

/-- R79, R82: an edge before the divider-th is counted and is no tick; the divider-th is no mere edge. -/
theorem test_referenceEdge :
    ((after (.referenceEdge 0) (clockedAt 510 active)).generator 0).edges = 511
      ∧ after (.tick 0 lanes) (clockedAt 510 active) = clockedAt 510 active
      ∧ after (.referenceEdge 0) (clocked active) = clocked active := by decide +kernel

/-! ### Witnesses: for each statement with hypotheses, states and operands that meet them -/

theorem witness_StepRunsFrontCommand :
    ({ active with pending := [.nop 0 1, .resetPin] } : State).pending = .nop 0 1 :: [.resetPin] ∧ active.pending = [] := by
  decide +kernel

theorem witness_FullResetTaken :
    (playing.pin = false ∧ wordReset 2 = true) ∧ (after .resetPin playing).pin = true := by decide +kernel

theorem witness_WritesDiscardedOrTaken :
    isDiscardedWrite 0x18 2 5 = true ∧ isDiscardedWrite 0x08 4 0xFF = true ∧ State.reset.pin = false
      ∧ State.reset.engine.state = .off ∧ active.pin = false ∧ active.engine.state ≠ .off := by decide +kernel

/-- Refused: outside ACTIVE, ring id 10, an index at the size of each ring, a CLOSED stream. -/
theorem witness_RingNotifyRefused :
    (State.reset.pin = false ∧ State.reset.engine.state ≠ .active)
      ∧ (active.pin = false ∧ 10 ≤ notifyRing 0x000A0000)
      ∧ (notifyRing 0x00000010 = 0 ∧ active.command.size ≤ notifyIndex 0x00000010)
      ∧ (notifyRing 0x00010010 = (0 : StreamNo).val + 1 ∧ (playing.stream 0).ringSize ≤ notifyIndex 0x00010010)
      ∧ (notifyRing 0x00080000 = (7 : StreamNo).val + 1 ∧ (active.stream 7).state = .closed)
      ∧ (notifyRing 0x00090040 = 9 ∧ active.events.size ≤ notifyIndex 0x00090040) := by decide +kernel

/-- Accepted: the highest index of the Control Ring and of a stream's ring, with a record to read. -/
theorem witness_RingNotifySetsProducer :
    active.pin = false ∧ active.engine.state = .active
      ∧ (notifyRing 0x0000000F = 0 ∧ notifyIndex 0x0000000F < active.command.size ∧ active.transfers.mode = .issue
        ∧ notifyIndex 0x0000000F ≠ active.command.consumer ∧ active.command.phase = .ready
        ∧ (∀ e, active.transfer e = none) ∧ (∀ n, (active.stream n).state = .closed) ∧ active.events.holding = [])
      ∧ playing.pin = false ∧ playing.engine.state = .active
      ∧ (notifyRing 0x0001000F = (0 : StreamNo).val + 1 ∧ (playing.stream 0).state ≠ .closed
        ∧ notifyIndex 0x0001000F < (playing.stream 0).ringSize)
      ∧ (let c := playing.stream 0
        c.isTaking = true ∧ (∀ e, playing.transfer e = none) ∧ c.staging.length < 16 ∧ notifyIndex 0x0001000F ≠ c.consumer
          ∧ (∀ r ∈ c.staging, r.record.endFlag = false) ∧ c.inTail = false ∧ c.state ≠ .draining
          ∧ playing.transfers.mode = .issue) := by decide +kernel

/-- Released: 5 of 5 posted entries, 6 of them refused, none, and a whole full ring of 64. -/
theorem witness_ReleaseFreesEntries :
    let some5 : State := { active with events := { active.events with posted := 5 } }
    let full : State := { active with events := { active.events with posted := 64 } }
    let beyond (s : State) (w : BitVec 32) : Nat := (notifyIndex w + s.events.size - s.events.releaseIndex) % s.events.size
    some5.pin = false ∧ some5.engine.state = .active ∧ some5.events.releaseIndex < some5.events.size
      ∧ (notifyRing 0x00090005 = 9 ∧ notifyIndex 0x00090005 < 64 ∧ beyond some5 0x00090005 = 5)
      ∧ (notifyRing 0x00090006 = 9 ∧ notifyIndex 0x00090006 < 64 ∧ some5.events.posted < beyond some5 0x00090006)
      ∧ (notifyRing 0x00090000 = 9 ∧ beyond some5 0x00090000 = 0)
      ∧ full.pin = false ∧ full.engine.state = .active ∧ beyond full 0x00090000 = 0 := by decide +kernel

theorem witness_EnableBeginsBringUp :
    let at_ (p : Addr) : State := { State.reset with engine := { resetEngine with rootPointer := p } }
    (∀ p, (at_ p).pin = false ∧ (at_ p).engine.state = .off) ∧ (∀ e, State.reset.transfer e = none)
      ∧ wordEnable 1 = true ∧ wordReset 1 = false ∧ (at_ 0x8000).engine.rootPointer.toNat % 64 = 0
      ∧ (at_ 0x803F).engine.rootPointer.toNat % 64 ≠ 0 := by
  refine ⟨fun p => ⟨rfl, rfl⟩, ?_, ?_⟩ <;> decide +kernel

theorem witness_InterruptEnableTakenAlone :
    active.pin = false ∧ wordReset 5 = false ∧ wordEnable 5 = active.engine.state.enabled
      ∧ (after (.engineDisable 0) loading).pin = false ∧ (after (.engineDisable 0) loading).engine.state = .quiescing := by
  decide +kernel

/-- Outstanding in ISSUE, with the claim at once and behind two completions; outstanding in SETTLE; nothing outstanding. -/
theorem witness_DisableQuiesces :
    let late : State := { loading with claimChoices := [2] }
    let halted := after (.controlRingAccess 0) (moving (reading active) (.streamData 0) false)
    wordEnable 4 = false ∧ wordReset 4 = false
      ∧ (∀ s ∈ [loading, late], s.pin = false ∧ s.engine.state = .loading ∧ s.tableEmpty = false)
      ∧ (late.claimChoices.headD 0 = 2 ∧ loading.claimChoices.headD 0 = 0)
      ∧ (halted.pin = false ∧ halted.engine.state = .halted ∧ halted.tableEmpty = false ∧ halted.transfers.mode ≠ .issue)
      ∧ (playing.pin = false ∧ playing.engine.state = .active ∧ playing.tableEmpty = true) := by decide +kernel

/-- Valid at the least legal sizes, invalid at a holdoff of 1001. -/
theorem witness_RootBlockLoads :
    loading.arrives 0 ⟨.rootBlock, .rootBlock, false, 0x8000, 64, [], false⟩ = true ∧ loading.engine.state = .loading
      ∧ rootBlock.isValid = true ∧ ({ rootBlock with holdoff := 1000, threshold := 64 } : RootBlock).isValid = true
      ∧ ({ rootBlock with holdoff := 1001 } : RootBlock).isValid = false
      ∧ ({ rootBlock with threshold := 0 } : RootBlock).isValid = false := by decide +kernel

theorem witness_FatalErrorHalts :
    loading.arrives 0 ⟨.rootBlock, .rootBlock, false, 0x8000, 64, [], false⟩ = true ∧ loading.engine.state = .loading
      ∧ (reading active).arrives 0 ⟨.commandRecord, .slot 0, false, 0x10000, 64, [], false⟩ = true
      ∧ (reading active).engine.state = .active
      ∧ written.arrives 3 ⟨.eventWrite, .entries 1, true, 0x20000, 32, [], false⟩ = true
      ∧ written.engine.state = .active := by decide +kernel

/-- In SETTLE, in QUIESCING and HALTED; in ISSUE ahead of the quiesce claim, OK and with ERROR, alone and with another
transfer outstanding. -/
theorem witness_SettleDiscardsCompletions :
    let record : Transfer := ⟨.commandRecord, .slot 0, false, 0x10000, 64, [], false⟩
    let data : Transfer := ⟨.streamData 0, .frames 0 0 0, false, 0x5000, 8, [], false⟩
    completionEntry (.rootAccess 0) = some 0 ∧ active.transfer 0 = none
      ∧ (let s := after (.engineDisable 0) loading
        s.pin = false ∧ s.transfer 0 = some ⟨.rootBlock, .rootBlock, false, 0x8000, 64, [], false⟩
          ∧ completesTransfer (.rootAccess 0) ⟨.rootBlock, .rootBlock, false, 0x8000, 64, [], false⟩ = true
          ∧ s.transfers.mode ≠ .issue ∧ s.engine.state = .quiescing ∧ (s.putTransfer 0 none).tableEmpty = true)
      ∧ (let s := after (.controlRingAccess 0) (moving (reading active) (.streamData 0) false)
        s.pin = false ∧ s.engine.state ≠ .quiescing ∧ s.transfers.mode ≠ .issue
          ∧ (s.transfer 1).isSome = true)
      ∧ (∀ lead ∈ [1, 2], let s := moving (reading (quiescing lead playing)) (.streamData 0) false
        s.pin = false ∧ s.transfers.mode = .issue ∧ s.engine.state = .quiescing
          ∧ s.transfer 0 = some record ∧ s.transfer 1 = some data ∧ (s.putTransfer 1 none).tableEmpty = false
          ∧ completesTransfer (.nop 0 0) record = true ∧ completesTransfer (.controlRingAccess 0) record = true
          ∧ completesTransfer (.dataReadError 1) data = true ∧ isFailure (.nop 0 0) = false
          ∧ isFailure (.dataReadError 1) = true ∧ (s.stream 0).isTaking = true)
      ∧ (let s := reading (quiescing 2 playing)
        s.transfer 0 = some record ∧ (s.putTransfer 0 none).tableEmpty = true) := by decide +kernel

/-- The Root Block read, an urgent data read, an event write, a command record, a data read and a stream record: a grant
of each class, and a data write. -/
theorem witness_GrantServesFirstClass :
    let quiet : State := { playing with streams := Vector.replicate 8 closedStream }
    let fetches (c : Stream) : Stream := { c with staging := [{ stagedData with progress := 0 }], fifo := [] }
    let full : List Place := [frame 0, frame 1, frame 2, frame 3].map (fun p => { p with ring := 15 })
    let root := { active with engine := { active.engine with state := .loading } }
    let urgent := quiet.putStream 1 (fetches runningStream)
    let write : State := { active with events := { active.events with holding := [⟨.referenceLost 0 0, false⟩] } }
    let command : State := { active with command := { active.command with producer := 1, phase := .fetching } }
    let read := quiet.putStream 1 { fetches runningStream with fifo := full ++ full ++ full ++ full }
    let record := quiet.putStream 1 { opened with readPresented := true }
    let back := quiet.putStream 1 (capturing.stream 0 |> fun c => { c with
      staging := [stagedData], fifo := [frame 0, frame 1, frame 2, frame 3] })
    (root.wantsRoot = true ∧ root.grantOne.isSome = true)
      ∧ (urgent.wantsData 1 = true ∧ (urgent.stream 1).isUrgent = true ∧ urgent.grantOne.isSome = true)
      ∧ (write.wantsEventWrite = true ∧ write.grantOne.isSome = true)
      ∧ (command.wantsCommand = true ∧ command.grantOne.isSome = true)
      ∧ (read.wantsData 1 = true ∧ (read.stream 1).isUrgent = false ∧ read.grantOne.isSome = true)
      ∧ (record.wantsData 1 = false ∧ (record.stream 1).readPresented = true ∧ record.grantOne.isSome = true)
      ∧ (back.wantsData 1 = true ∧ (back.stream 1).direction = .capture ∧ back.grantOne.isSome = true) := by
  decide +kernel

/-- A read of the record's last frame, and of the second half of a frame that a 4 KiB boundary split with the FIFO full. -/
theorem witness_DataReadWithinLimits :
    let c := { runningStream with fifo := [] }
    let r : StagedRecord := { stagedData with progress := 3 }
    let full := { runningStream with fifo := List.replicate 32 (frame 0), fetchSplit := 2 }
    c.shapeLegal = true ∧ c.fetchSplit < c.frameSize ∧ c.recordConsistent r = true ∧ r.isOpen = true
      ∧ r.record.isData = true ∧ c.fifo.length < 32 ∧ (∀ x ∈ [r], x.ringIndex = r.ringIndex → x = r)
      ∧ full.shapeLegal = true ∧ full.fetchSplit < full.frameSize ∧ full.fifo.length = 32 ∧ full.fetchSplit ≠ 0 := by
  decide +kernel

/-- A capture write of a record whose first frame has been written in half, ending at the record's last frame. -/
theorem witness_DataReadWithinLimits_write :
    let half : Place := { frame 0 with issued := 2 }
    let c := { capturing.stream 0 with staging := [stagedData], fifo := [half, frame 1, frame 2, frame 3] }
    c.shapeLegal = true ∧ c.candidate = half :: [frame 1, frame 2, frame 3] ∧ c.recordAt 0 = some stagedData
      ∧ c.recordConsistent stagedData = true ∧ stagedData.invalid = none ∧ stagedData.record.isData = true
      ∧ (∀ q ∈ c.fifo, q.bytes.length = c.frameSize) ∧ half.frame + 3 < stagedData.record.frameCount.toNat := by
  decide +kernel

/-- The last entry of the ring, one free entry. -/
theorem witness_EventWriteWithinLimits :
    let e : EventUnit := { active.events with holding := [⟨.referenceLost 0 0, false⟩], writeIndex := 63, posted := 63 }
    e.holding ≠ [] ∧ 0 < e.free ∧ e.writeIndex < e.size ∧ e.base.toNat % 32 = 0
      ∧ e.base.toNat + 32 * e.size ≤ 2 ^ 64 := by decide +kernel

theorem witness_NopAndUnknownAnswered : (reading active).commandRead 0 0 = true := by decide +kernel

theorem witness_SetGeneratorConfigures :
    (reading active).commandRead 0 0 = true ∧ (reading (clocked active)).commandRead 0 0 = true := by decide +kernel

theorem witness_EnableGeneratorRuns : (reading active).commandRead 0 0 = true := by decide +kernel

theorem witness_DisableGeneratorHolds :
    (reading (clocked active)).commandRead 0 0 = true ∧ (reading playing).commandRead 0 0 = true := by decide +kernel

/-- Stream 8 names nothing; stream 0 is open; slots 9 are out of range; stream 7 opens with 8 slots. -/
theorem witness_OpenStreamInitialises :
    (reading playing).commandRead 0 0 = true ∧ 7 < ({ openParams with stream := 8 } : OpenParams).stream.toNat
      ∧ ((reading playing).stream 0).state ≠ .closed
      ∧ ((reading playing).stream 7).state = .closed ∧ ((reading playing).stream 7).reportConsistent = true := by
  decide +kernel

theorem witness_OpenStreamInitialises_ranges :
    OpenParamsInRange { openParams with stream := 7, slots := 8, size := 4096, start := 4095 }
      ∧ ¬OpenParamsInRange { openParams with slots := 9 } := by
  refine ⟨⟨by decide, by decide, by decide, by decide, by decide, by decide, by decide, by decide, by decide, by decide,
    by decide, ⟨12, by decide⟩, by decide, by decide⟩, fun h => absurd h.2.2.2.1 (by decide)⟩

/-- Refused in RUNNING and for stream 8; at once for an IDLE stream; a wait for a FAULTED one whose read is outstanding. -/
theorem witness_CloseStreamCloses :
    (reading playing).commandRead 0 0 = true ∧ ((reading playing).stream 0).state ≠ .idle
      ∧ ((reading playing).stream 0).state ≠ .faulted ∧ 7 < (8 : BitVec 8).toNat
      ∧ (let s := reading (active.putStream 7 opened)
        s.commandRead 0 0 = true ∧ (s.stream 7).state = .idle ∧ (s.stream 7).reportConsistent = true
          ∧ (s.stream 7).staging = [] ∧ (s.stream 7).pendingReport = none ∧ (s.stream 7).faultOwed = none
          ∧ (s.stream 7).stopOwed = none ∧ s.noTransfers 7 = true)
      ∧ (let s := moving (reading (playing.putStream 0 { runningStream with state := .faulted })) (.streamData 0) false
        s.commandRead 0 0 = true ∧ (s.stream 0).state = .faulted ∧ (s.stream 0).reportConsistent = true
          ∧ (after (.closeStream 0 1 0) s).command.phase = .completing) := by decide +kernel

theorem witness_StartStopRefusedInOrder :
    (reading playing).commandRead 0 0 = true ∧ (reading playing).startRefusal (schedule condNext 0) = some .badState
      ∧ (reading active).commandRead 0 0 = true ∧ (reading active).stopRefusal (schedule condNow 0) = some .badState := by
  decide +kernel

theorem witness_StartStopCreateEntry :
    (reading ((clocked active).putStream 0 opened)).commandRead 0 0 = true
      ∧ (reading ((clocked active).putStream 0 opened)).startRefusal (schedule condAt 100) = none
      ∧ (reading playing).commandRead 0 0 = true ∧ (reading playing).stopRefusal (schedule condAt 101) = none
      ∧ (schedule condAt 101).condition = condAt := by decide +kernel

theorem witness_StopDrainBeginsDrain :
    (schedule condDrain 0).condition = condDrain ∧ (schedule condDrain 0).streams = streamBit 0
      ∧ ((reading playing).commandRead 0 0 = true ∧ (reading playing).stopRefusal (schedule condDrain 0) = none
        ∧ (reading playing).isSettled 0 = true ∧ ((reading playing).stream 0).reportConsistent = true
        ∧ ((reading playing).stream 0).staging ≠ [])
      ∧ (let s := reading hungry
        s.commandRead 0 0 = true ∧ s.stopRefusal (schedule condDrain 0) = none ∧ s.isSettled 0 = true
          ∧ (s.stream 0).reportConsistent = true ∧ (s.stream 0).staging = [] ∧ (s.stream 0).consumer = (s.stream 0).producer
          ∧ (s.stream 0).pendingReport = none ∧ (∀ q, s.waits q = false) ∧ s.events.holding.length + 2 ≤ 8)
      ∧ (let s := crowded (reading hungry)
        s.commandRead 0 0 = true ∧ s.stopRefusal (schedule condDrain 0) = none ∧ s.isSettled 0 = true
          ∧ (∀ q, s.waits q = false) ∧ 8 ≤ s.events.holding.length) := by decide +kernel

/-- A running stream, one with a read outstanding, for which the command waits, and an ARMED one whose entry it empties,
for which the command waits when the list is full. -/
theorem witness_StopNowStops :
    let held := moving (reading playing) (.streamData 0) false
    (∀ s ∈ [reading playing, held, reading armed, crowded (reading armed)], s.commandRead 0 0 = true
        ∧ s.stopRefusal (schedule condNow 0) = none ∧ s.scheduleConsistent = true
        ∧ ∀ n, (s.stream n).reportConsistent = true)
      ∧ ((reading playing).stream 0).isRunning = true ∧ ((reading armed).stream 0).state = .armed
      ∧ (after (.stopNow 0 1 (schedule condNow 0)) held).command.phase = .completing
      ∧ (after (.stopNow 0 1 (schedule condNow 0)) (crowded (reading armed))).command.entryWait = [5]
      ∧ (reading armed).schedule.entries.all (fun x => x.state == .waiting && x.streams == 1) = true := by decide +kernel

/-- A WAITING entry, an id that no entry holds, and a full list, for which the command waits. -/
theorem witness_CancelClearsEntry :
    (∀ s ∈ [reading armed, crowded (reading armed)], s.commandRead 0 0 = true ∧ s.scheduleConsistent = true
        ∧ s.entry? 5 = some (scheduled .start .next (some 101))
        ∧ (s.entry? 6).all (fun x => x.state != .waiting) = true)
      ∧ (after (.cancel 0 1 5) (crowded (reading armed))).command.phase = .completing := by decide +kernel

theorem witness_SetTriggerSelects : (reading active).commandRead 0 0 = true := by decide +kernel

theorem witness_QueryReadsPage : (reading playing).commandRead 0 0 = true := by decide +kernel

theorem witness_RecordValidationOrder : opened.width = 16 ∧ ({ opened with width := 32 } : Stream).width = 32 := by
  decide +kernel

/-- Taken valid; taken invalid into an empty list with room and without, behind another record, and behind a report that
waits; not taken at the drain limit; not taken in STOPPING. -/
theorem witness_RecordReadTakes :
    let t : Transfer := ⟨.streamRecord 0, .slot 1, false, 0x30020, 32, [], false⟩
    let bad : StreamRecord := { dataRecord with frameCount := 0 }
    let full := crowded (fetching hungry)
    let waiting := crowded (fetching (hungry.putStream 0 { hungry.stream 0 with
      pendingReport := some ⟨.streamFault 0 .underrun 0, false⟩ }))
    let limit := fetching (playing.putStream 0 { runningStream with state := .draining, drainLimit := some 1 })
    let halting := fetching (hungry.putStream 0 { hungry.stream 0 with state := .stopping, destination := some .idle })
    (∀ s ∈ [fetching playing, fetching hungry, full, waiting, limit, halting],
        s.arrives 2 t = true ∧ s.isSettled 0 = true ∧ s.owesNoAnswer = true)
      ∧ (∀ s ∈ [fetching playing, fetching hungry, full, waiting],
        (s.stream 0).isTaking = true ∧ validate (s.stream 0) dataRecord = none
          ∧ validate (s.stream 0) bad = some .zeroLength)
      ∧ ((fetching playing).stream 0).staging ≠ [] ∧ (waiting.stream 0).pendingReport ≠ none
      ∧ (∀ s ∈ [fetching hungry, full], (s.stream 0).staging = [] ∧ (s.stream 0).pendingReport = none)
      ∧ (fetching hungry).roomFor (streamProducer 0) = true ∧ full.roomFor (streamProducer 0) = false
      ∧ (limit.stream 0).drainLimit = some (limit.stream 0).consumer ∧ (halting.stream 0).isTaking = false := by
  decide +kernel

/-- A read in a running state, and one marked for discard in STOPPING and in FAULTED. -/
theorem witness_DataReadFills :
    let s := moving playing (.streamData 0) false
    let marked (state : StreamState) : State :=
      (playing.putStream 0 { runningStream with state := state, fifo := [], destination := some .idle }).putTransfer 1
        (some ⟨.streamData 0, .frames 0 0 0, false, 0x5000, 8, [], true⟩)
    s.arrives 1 ⟨.streamData 0, .frames 0 0 0, false, 0x5000, 8, [], false⟩ = true
      ∧ (List.replicate 8 (0 : Byte)).length = 8 ∧ (s.stream 0).direction = .output ∧ (s.stream 0).isTaking = true
      ∧ (∀ state ∈ [StreamState.stopping, .faulted],
        (marked state).arrives 1 ⟨.streamData 0, .frames 0 0 0, false, 0x5000, 8, [], true⟩ = true
          ∧ ((marked state).stream 0).state = state ∧ ((marked state).stream 0).direction = .output
          ∧ ((marked state).stream 0).reportConsistent = true) := by
  decide +kernel

/-- Two frames of four written; and the last two of a head record, which finishes it. -/
theorem witness_DataWriteFrees :
    let t : Transfer := ⟨.streamData 0, .frames 0 0 0, true, 0x5000, 8, [], false⟩
    let places : List Place := [{ frame 0 with issued := 4, writes := 1 }, { frame 1 with issued := 4, writes := 1 }]
    let r₀ : StagedRecord := { stagedData with outstanding := 1, moved := 2 }
    let s := moving capturing (.streamData 0) true
    let last := moving (capturing.putStream 0 { capturing.stream 0 with staging := [r₀], fifo := places }) (.streamData 0) true
    (∀ x ∈ [s, last], x.arrives 1 t = true ∧ (x.stream 0).direction = .capture)
      ∧ (last.stream 0).isTaking = true ∧ (last.stream 0).pendingReport = none ∧ (last.stream 0).faultOwed = none
      ∧ (last.stream 0).staging.head? = some r₀ ∧ r₀.invalid = none ∧ r₀.retired = none ∧ r₀.outstanding = 1
      ∧ r₀.progress = r₀.record.frameCount.toNat
      ∧ (after (.dataWriteComplete 1) last).heldEvents = [.bufferDone 0 9 0 .done none 4 none false] := by decide +kernel

/-- Each access in a running state, and a failed read in STOPPING. -/
theorem witness_AccessErrorFaults :
    let record : Transfer := ⟨.streamRecord 0, .slot 1, false, 0x30020, 32, [], false⟩
    let data (write : Bool) : Transfer := ⟨.streamData 0, .frames 0 0 0, write, 0x5000, 8, [], false⟩
    let halting := moving (playing.putStream 0 { runningStream with state := .stopping, destination := some .idle })
      (.streamData 0) false
    (fetching playing).arrives 2 record = true ∧ ((fetching playing).stream 0).reportConsistent = true
      ∧ ((fetching playing).stream 0).isTaking = true
      ∧ (∀ s ∈ [moving playing (.streamData 0) false, halting],
        s.arrives 1 (data false) = true ∧ (s.stream 0).reportConsistent = true)
      ∧ (halting.stream 0).isTaking = false
      ∧ (moving capturing (.streamData 0) true).arrives 1 (data true) = true
      ∧ ((moving capturing (.streamData 0) true).stream 0).reportConsistent = true := by decide +kernel

/-- A fault owed, a finished head record, an owed STOP_DONE, a drain complete and each end of STOPPING, with a free list
and with a full one; and a report that waits. -/
theorem witness_ReportsInOrder :
    let faulted := playing.putStream 0 { runningStream with faultOwed := some (.underrun, 100) }
    let retires := playing.putStream 0 { runningStream with staging := [{ stagedData with finished := true }] }
    let ended := hungry.putStream 0 { hungry.stream 0 with stopOwed := some ⟨.endRecord, false⟩ }
    let drained := hungry.putStream 0 { hungry.stream 0 with state := .draining, drainLimit := some 1 }
    let stops (destination : Destination) (origin : StopOrigin) : State := hungry.putStream 0 { hungry.stream 0 with
      state := .stopping, destination := some destination, stopOrigin := some origin, stoppedFromFault := true }
    let ends := [stops .closed .command, stops .idle .entry, stops .idle .command]
    (∀ s ∈ [faulted, retires, ended, drained] ++ ends,
        (s.stream 0).pendingReport = none ∧ s.roomFor (streamProducer 0) = true
          ∧ (crowded s).roomFor (streamProducer 0) = false)
      ∧ (faulted.stream 0).faultOwed = some (.underrun, 100)
      ∧ (∀ s ∈ [retires, ended, drained] ++ ends, (s.stream 0).faultOwed = none)
      ∧ (∀ s ∈ [ended, drained] ++ ends, (s.stream 0).staging = [])
      ∧ (ended.stream 0).stopOwed = some ⟨.endRecord, false⟩ ∧ (drained.stream 0).drainLimit = some (drained.stream 0).consumer
      ∧ (∀ s ∈ [drained] ++ ends, (s.stream 0).stopOwed = none)
      ∧ (∀ s ∈ ends, s.noTransfers 0 = true ∧ s.scheduleConsistent = true)
      ∧ ((stops .idle .command).settleStep 0).isSome = true
      ∧ (hungry.putStream 0 { hungry.stream 0 with
          pendingReport := some ⟨.streamFault 0 .underrun 0, false⟩ }).settleStep 0 = none := by decide +kernel

/-- A tick comes; its generator has an IDLE, a STOPPING, a FAULTED, an ARMED stream whose entry does not fire and closed
ones; and no tick comes in OFF and at another edge count. -/
theorem witness_TickAdvances :
    let s := ((armed.modifyStream 0 (fun c => { c with scheduleEntry := none })).putStream 1 opened).putStream 2
      { hungry.stream 0 with state := .stopping, destination := some .idle } |>.putStream 3
      { hungry.stream 0 with state := .faulted }
    s.ticksNext 0 ∧ (∀ n, (s.stream n).generator = 0)
      ∧ ((s.stream 0).state = .armed ∧ s.notFiring 0 .start ∧ (∀ l ∈ s.streamLosses, l.generator ≠ 0))
      ∧ ((s.stream 1).state, (s.stream 2).state, (s.stream 3).state, (s.stream 4).state)
        = (.idle, .stopping, .faulted, .closed)
      ∧ (s.generator 1).state ≠ .running
      ∧ ((clockedAt 510 active).generator 0).edges + 1 ≠ ((clockedAt 510 active).generator 0).divider := by
  unfold State.ticksNext State.notFiring; decide +kernel

/-- With no entry, with a STOP entry that fires later, and in DRAINING. -/
theorem witness_RunTickCounts :
    let later := withEntry playing (scheduled .stop .atPosition (some 105))
    let drains := playing.putStream 0 { runningStream with state := .draining, drainLimit := some 1 }
    playing.runsOn 0 ∧ later.runsOn 0 ∧ drains.runsOn 0 := by
  unfold State.runsOn State.ticksNext State.notFiring; decide +kernel

/-- A frame in the middle of a record, and the one that finishes it. -/
theorem witness_OutputTickPasses :
    let r₀ : StagedRecord := { stagedData with moved := 3 }
    let last := playing.putStream 0 { runningStream with staging := [r₀], fifo := [frame 3], starveRun := 2 }
    (∀ s ∈ [playing, last], s.runsOn 0 ∧ (s.stream 0).inTail = false ∧ (s.stream 0).direction = .output
        ∧ (s.stream 0).inRingOrder = true ∧ (s.stream 0).staging.length ≤ 16)
      ∧ (playing.stream 0).fifo = frame 0 :: [frame 1, frame 2, frame 3] ∧ (last.stream 0).fifo = frame 3 :: []
      ∧ (∀ p ∈ [frame 0, frame 3], ∀ b ∈ p.bytes, b ≠ none)
      ∧ (last.stream 0).staging.head? = some r₀ ∧ r₀.ringIndex = (frame 3).ring
      ∧ r₀.moved + 1 = r₀.record.frameCount.toNat ∧ r₀.invalid = none ∧ r₀.retired = none ∧ r₀.outstanding = 0
      ∧ (last.stream 0).pendingReport = none ∧ (last.stream 0).faultOwed = none
      ∧ (after (.tick 0 lanes) last).heldEvents
        = [.starveEnd 0 101 2 0, .bufferDone 0 9 0 .done none 4 none false] := by
  unfold State.runsOn State.ticksNext State.notFiring; decide +kernel

/-- A DATA record's first frame, and the last assignment of a GAP record. -/
theorem witness_CaptureTickAssigns :
    let gap : StagedRecord := { stagedData with record := { dataRecord with kind := 2 }, progress := 3, moved := 3 }
    let gapped := capturing.putStream 0 { capturing.stream 0 with staging := [gap] }
    (∀ s ∈ [capturing, gapped], s.runsOn 0 ∧ (s.stream 0).inTail = false ∧ (s.stream 0).direction = .capture
        ∧ (s.stream 0).fifo.length < 32 ∧ (s.stream 0).inRingOrder = true ∧ (s.stream 0).staging.length ≤ 16
        ∧ (s.stream 0).pendingReport = none ∧ (s.stream 0).faultOwed = none)
      ∧ (capturing.stream 0).current = some { stagedData with progress := 0 } ∧ (gapped.stream 0).current = some gap
      ∧ gap.record.isGap = true ∧ (gapped.stream 0).staging.head? = some gap
      ∧ gap.progress + 1 = gap.record.frameCount.toNat ∧ gap.retired = none ∧ gap.outstanding = 0
      ∧ (after (.tick 0 lanes) gapped).heldEvents = [.bufferDone 0 9 0 .done none 4 none false] := by
  unfold State.runsOn State.ticksNext State.notFiring; decide +kernel

/-- OUTPUT without a head frame, with policies SILENCE and HALT, and CAPTURE without a record. -/
theorem witness_StarvedTickCounts :
    let halts := hungry.putStream 0 { hungry.stream 0 with policy := .halt }
    let captures := hungry.putStream 0 { hungry.stream 0 with direction := .capture }
    (∀ s ∈ [hungry, halts, captures], s.runsOn 0 ∧ (s.stream 0).inTail = false ∧ s.isSettled 0 = true
        ∧ (s.stream 0).fifo = [] ∧ (s.stream 0).current = none)
      ∧ (hungry.stream 0).direction = .output ∧ (halts.stream 0).policy = .halt
      ∧ (captures.stream 0).direction = .capture := by
  unfold State.runsOn State.ticksNext State.notFiring; decide +kernel

theorem witness_EndedRunTicks :
    let s := playing.putStream 0 { runningStream with pendingReport := some ⟨.streamStopDone 0 0 .endRecord 100, false⟩ }
    s.runsOn 0 ∧ (s.stream 0).inTail = true := by unfold State.runsOn State.ticksNext State.notFiring; decide +kernel

theorem witness_StartFires :
    armed.firesNext 0 0 (scheduled .start .next (some 101)) .start ∧ armed.scheduleConsistent = true
      ∧ (armed.stream 0).state = .armed := by unfold State.firesNext State.ticksNext; decide +kernel

theorem witness_StopFires :
    stopping.firesNext 0 0 (scheduled .stop .atPosition (some 101)) .stop ∧ stopping.scheduleConsistent = true
      ∧ (stopping.stream 0).state = .running ∧ (stopping.stream 0).reportConsistent = true := by
  unfold State.firesNext State.ticksNext; decide +kernel

/-- An edge that is counted and one that completes a tick; a monitor that expires with room, and one that expires while
the list is full. -/
theorem witness_ReferenceMonitored :
    let s := active.putGenerator 0 { resetGenerator with state := .running, source := .ref0, monitor := some 10 }
    s.isActive = true ∧ (s.generator 0).state = .running ∧ (s.generator 0).edges + 1 < (s.generator 0).divider
      ∧ ((clocked active).generator 0).divider ≤ ((clocked active).generator 0).edges + 1
      ∧ (s.generator 0).monitor ≠ none ∧ s.timebase.lostReports = [] ∧ s.roomFor timebaseProducer = true
      ∧ (crowded s).isActive = true ∧ (crowded s).placeFree = false
      ∧ (active.generator 0).state ≠ .running ∧ (active.generator 0).monitor = none := by decide +kernel

/-- A running stream that an entry names, with a read outstanding. -/
theorem witness_StreamLossFaults :
    let s : State := moving { stopping with streamLosses := [⟨0, 100⟩] } (.streamData 0) false
    s.isActive = true ∧ s.streamLosses.find? (fun l => l.generator == 0) = some ⟨0, 100⟩
      ∧ (∀ n, (s.stream n).reportConsistent = true) ∧ (s.stream 0).isRunning = true
      ∧ (s.stream 0).scheduleEntry = some 5 := by decide +kernel

/-- A WAITING entry of the generator, one of another, a FIRING one and one whose closing event is decided. -/
theorem witness_ScheduleLossClears :
    let others : List ScheduleEntry :=
      [{ scheduled .stop .next (some 7) with id := 6, generator := 1 },
        { scheduled .stop .next (some 100) with id := 7, state := .firing },
        { scheduled .stop .next (some 100) with
          id := 8, state := .clearedUnreported, closing := some (.entryCleared 8 .stop .cancelled) }]
    let s : State := { armed with schedule := { armed.schedule with
      entries := armed.schedule.entries ++ others, losses := [⟨0, 100⟩] } }
    s.isActive = true ∧ s.schedule.losses.find? (fun l => l.generator == 0) = some ⟨0, 100⟩
      ∧ s.scheduleConsistent = true := by decide +kernel

/-- No claim; a claim on an id that no entry holds; one that leaves stream 1 in the set and one that empties it; and on a
FIRING entry, one that leaves a stream without its answer and one that leaves only answered streams. -/
theorem witness_RemovalClaimTaken :
    let claimed (s : State) : State := { s with schedule := { s.schedule with removals := [⟨5, 0, .streamsLeft⟩] } }
    let single := scheduled .stop .atPosition (some 101)
    let pair : ScheduleEntry := { single with streams := 3 }
    let firing (answered : StreamSet) : ScheduleEntry := { pair with state := .firing, answered := answered }
    (stopping.isActive = true ∧ stopping.schedule.removals.find? (fun c => c.stream == 0) = none)
      ∧ (∀ s ∈ claimed playing :: [single, pair, firing 0, firing 2].map (fun x => claimed (withEntry playing x)),
        s.isActive = true ∧ s.schedule.removals.find? (fun c => c.stream == 0) = some ⟨5, 0, .streamsLeft⟩
          ∧ s.scheduleConsistent = true ∧ s.owesNoAnswer = true
          ∧ s.schedule.entries.all (fun x => x.id == 5 && x.streams.getLsbD 0) = true)
      ∧ (single.streams &&& ~~~streamBit 0) = 0 ∧ (pair.streams &&& ~~~streamBit 0) ≠ 0
      ∧ ((firing 0).streams &&& ~~~streamBit 0 &&& ~~~(firing 0).answered) ≠ 0
      ∧ ((firing 2).streams &&& ~~~streamBit 0 &&& ~~~(firing 2).answered) = 0 := by decide +kernel

/-- A selected edge with reporting and room, with a full list, and an edge under NONE. -/
theorem witness_TriggerEdgeTaken :
    let s := active.putLine 0 ⟨.rising, true, 0⟩
    s.isActive = true ∧ (s.line 0).selection = .rising ∧ (crowded s).isActive = true
      ∧ 8 ≤ (crowded s).events.holding.length ∧ (s.line 1).selection = .noEdge := by decide +kernel

/-- Posted with nobody waiting, and with a stream and the Command Unit waiting for the place; the timer runs or not. -/
theorem witness_EventWritePosts :
    let report : Event := .streamFault 0 .underrun 0
    let waiting := (written.putStream 0 { hungry.stream 0 with pendingReport := some ⟨report, false⟩ })
    let both : State := { waiting with command := { waiting.command with
      phase := .reporting, inProgress := some ⟨.nop 0 1, 0, 1, [], .nobody⟩
      slot := some (.cmdDone 1 0 .ok (List.replicate 16 0)) } }
    (∀ s ∈ [written, waiting, both],
        s.arrives 3 ⟨.eventWrite, .entries 1, true, 0x20000, 32, [], false⟩ = true ∧ s.commandConsistent = true
          ∧ (s.heldEvents.drop 1).length < 8)
      ∧ (∀ p, written.waits p = false)
      ∧ waiting.nextWaiting = some (streamProducer 0) ∧ waiting.waitingEvent (streamProducer 0) = some report
      ∧ both.nextWaiting.isSome = true ∧ both.waits commandProducer = true
      ∧ (let s : State := { active with events := { active.events with timerRunning := true } }
        s.isActive = true ∧ s.events.timerRunning = true)
      ∧ active.events.timerRunning = false := by decide +kernel

/-- A quiet lane, and an active OUTPUT lane and CAPTURE lane of two slots of 16 bits. -/
theorem witness_LaneCarriesFrame :
    let shifting := playing.putPort 0 ⟨true, [1, 2, 3, 4]⟩
    let sampling := capturing.putPort 0 ⟨true, []⟩
    (playing.port 0).active = false
      ∧ ((shifting.port 0).active = true ∧ (shifting.stream 0).width = 16
        ∧ ((shifting.stream 0).direction = .output → (shifting.port 0).frame.length = (shifting.stream 0).frameSize))
      ∧ ((sampling.port 0).active = true ∧ (sampling.stream 0).direction = .capture ∧ (sampling.stream 0).width = 16)
      ∧ ([1, 2, 3, 4] : List Byte).length = 2 * 16 / 8 ∧ (List.replicate 32 (5 : Byte)).length = 8 * 32 / 8 := by
  decide +kernel

theorem witness_CommandRecordRoundTrip :
    WellFormed (.stopDrain 7 0xFFFF (schedule condDrain 0)) = true
      ∧ completionEntry (.stopDrain 7 0xFFFF (schedule condDrain 0)) = some 7
      ∧ (encodeCommandRecord (.stopDrain 7 0xFFFF (schedule condDrain 0))).isSome = true := by decide +kernel

/-- The invariants hold in a state of a run, and a step from it answers next. -/
theorem witness_StepKeepsEngineConsistent :
    playing.engineConsistent = true ∧ loading.engineConsistent = true
      ∧ (reading (quiescing 2 playing)).engineConsistent = true := by decide +kernel

theorem witness_StepKeepsBounds : playing.bounded = true ∧ (crowded capturing).bounded = true := by decide +kernel

theorem witness_StepLeavesNoneWaiting :
    playing.noneWaits = true ∧ playing.commandConsistent = true := by decide +kernel

theorem witness_StepKeepsRunLaw : playing.runLaw ∧ playing.belowTop := by
  refine ⟨?_, ?_, ?_⟩
  · intro n hn
    have h0 : n = 0 := by revert n; decide +kernel
    subst h0
    exact ⟨by decide +kernel, 100, by decide +kernel, by decide +kernel⟩
  · decide +kernel
  · decide +kernel

theorem witness_StepLeavesStreamsSettled : playing.engineConsistent = true ∧ playing.settled = true := by decide +kernel

theorem witness_StepKeepsSchedule : armed.scheduleConsistent = true ∧ stopping.scheduleConsistent = true := by
  decide +kernel

theorem witness_StepKeepsStaging : playing.bounded = true ∧ playing.stagingConsistent = true := by decide +kernel

end Sys2Proof.Tests
end

section
/-! The checks of a record at its take (R28), each in the numbers of section 2.2. -/

namespace Sys2Proof

theorem StreamRecord.isData_iff (r : StreamRecord) : r.isData = true ↔ r.kind.toNat = 1 := by
  simp [StreamRecord.isData, ← BitVec.toNat_inj]

theorem StreamRecord.isGap_iff (r : StreamRecord) : r.isGap = true ↔ r.kind.toNat = 2 := by
  simp [StreamRecord.isGap, ← BitVec.toNat_inj]

end Sys2Proof

namespace Sys2Proof.Machine

/-! ### What a check tests, in numbers -/

/-- A number reaches 2 ^ k exactly when a bit at or above position k is set. -/
theorem two_pow_le_toNat_iff_exists_getLsbD {w : Nat} (x : BitVec w) (k : Nat) :
    2 ^ k ≤ x.toNat ↔ ∃ i, k ≤ i ∧ i < w ∧ x.getLsbD i = true := by
  constructor
  · intro h
    obtain ⟨i, hki, hbit⟩ := Nat.exists_ge_and_testBit_of_ge_two_pow h
    exact ⟨i, hki, BitVec.lt_of_getLsbD hbit, hbit⟩
  · rintro ⟨i, hki, -, hbit⟩
    exact (Nat.pow_le_pow_right Nat.two_pos hki).trans (Nat.ge_two_pow_of_testBit hbit)

/-- END, MARK and QUIET are the low three flags, so a greater number sets one of the five reserved ones. -/
theorem reservedFlags_iff (flags : BitVec 8) :
    flags.toNat ≥ 8 ↔ flags.getLsbD 3 ∨ flags.getLsbD 4 ∨ flags.getLsbD 5 ∨ flags.getLsbD 6 ∨ flags.getLsbD 7 := by
  have hbits : 8 ≤ flags.toNat ↔ ∃ i, 3 ≤ i ∧ i < 8 ∧ flags.getLsbD i = true :=
    two_pow_le_toNat_iff_exists_getLsbD flags 3
  rw [ge_iff_le, hbits]
  constructor
  · rintro ⟨i, hlow, hhigh, hbit⟩
    interval_cases i <;> simp [hbit]
  · rintro (h | h | h | h | h)
    · exact ⟨3, by omega, by omega, h⟩
    · exact ⟨4, by omega, by omega, h⟩
    · exact ⟨5, by omega, by omega, h⟩
    · exact ⟨6, by omega, by omega, h⟩
    · exact ⟨7, by omega, by omega, h⟩

/-- The sample container is 2 bytes at width 16 and 4 bytes at width 32. -/
theorem misaligned_iff {width : Nat} (address : Nat) (hw : width = 16 ∨ width = 32) :
    address % (width / 8) ≠ 0 ↔ (width = 16 ∧ ¬2 ∣ address) ∨ (width = 32 ∧ ¬4 ∣ address) := by
  rcases hw with rfl | rfl <;> omega

theorem fitsAddressSpace_eq_false_iff (base : Addr) (size : Nat) :
    fitsAddressSpace base size = false ↔ 2 ^ 64 ≤ base.toNat + size - 1 := by
  simp only [fitsAddressSpace, decide_eq_false_iff_not]
  omega

/-! ### The checks as `validate` makes them, but for RESERVED_FLAGS, which is `reservedFlags_iff` -/

theorem unknownKind_check_iff (r : StreamRecord) :
    (!r.isData && !r.isGap) = true ↔ ¬r.kind.toNat = 1 ∧ ¬r.kind.toNat = 2 := by
  simp [← r.isData_iff, ← r.isGap_iff]

theorem zeroLength_check_iff (r : StreamRecord) : (r.frameCount == 0) = true ↔ r.frameCount.toNat = 0 := by
  simp [← BitVec.toNat_inj]

theorem repeatOnCapture_check_iff (c : Stream) (r : StreamRecord) :
    (r.isData && c.direction == .capture && r.repeatCount != 0) = true
      ↔ r.kind.toNat = 1 ∧ c.direction = .capture ∧ r.repeatCount.toNat ≠ 0 := by
  simp [← r.isData_iff, ← BitVec.toNat_inj, and_assoc]

theorem alignment_check_iff (c : Stream) (r : StreamRecord) (hw : c.width = 16 ∨ c.width = 32) :
    (r.isData && r.address.toNat % (c.width / 8) != 0) = true
      ↔ r.kind.toNat = 1 ∧ ((c.width = 16 ∧ ¬2 ∣ r.address.toNat) ∨ (c.width = 32 ∧ ¬4 ∣ r.address.toNat)) := by
  rw [← misaligned_iff r.address.toNat hw]
  simp [← r.isData_iff]

theorem addressWrap_check_iff (c : Stream) (r : StreamRecord) :
    (r.isData && !fitsAddressSpace r.address (r.frameCount.toNat * c.frameSize)) = true
      ↔ r.kind.toNat = 1 ∧ 2 ^ 64 ≤ r.address.toNat + r.frameCount.toNat * c.frameSize - 1 := by
  rw [← fitsAddressSpace_eq_false_iff, Bool.and_eq_true, r.isData_iff, Bool.not_eq_true']

/-- The record taken stands at the tail, with the result of its checks. -/
theorem Stream.takeRecord_staging (c : Stream) (r : StreamRecord) :
    (c.takeRecord r).staging = c.staging ++ [stageRecord c r] := rfl

@[simp] theorem stageRecord_record (c : Stream) (r : StreamRecord) : (stageRecord c r).record = r := rfl

@[simp] theorem stageRecord_invalid (c : Stream) (r : StreamRecord) : (stageRecord c r).invalid = validate c r := rfl

end Sys2Proof.Machine

open Sys2Proof.Machine

/-- Settles O31: the take stages the record with the result of `validate`, whose branches stand in the order of R28;
each branch tests, by its own lemma, what the table of R28 says in numbers. -/
theorem recordValidationOrder : Obligations.RecordValidationOrder := by
  intro c r hw
  refine ⟨stageRecord c r, c.takeRecord_staging r, stageRecord_record c r, ?_⟩
  rw [stageRecord_invalid]
  simp only [validate, unknownKind_check_iff, reservedFlags_iff, zeroLength_check_iff, repeatOnCapture_check_iff,
    alignment_check_iff c r hw, addressWrap_check_iff]

end

section
/-! NOP, an unknown kind, SET_TRIGGER and the generator commands: each command's checks and its effect said once, in the
numbers of its table, and the taking of a command that is answered at its execution (R118, R121 to R127, R139). -/

namespace Sys2Proof.Machine

/-! ### What the rows dispatch to -/

theorem exec_nop (e : TransferId) (seq : BitVec 16) (s : State) :
    exec (.nop e seq) s = .next (s.takeCommand e (.nop e seq) seq (fun s => s.answerOk [])) := rfl

theorem exec_unknownCommandKind (e : TransferId) (seq : BitVec 16) (kind : BitVec 8) (s : State) :
    exec (.unknownCommandKind e seq kind) s
      = .next (s.takeCommand e (.unknownCommandKind e seq kind) seq (fun s => s.refuse .unknown)) := rfl

theorem exec_setTrigger (e : TransferId) (seq : BitVec 16) (line selection report : BitVec 8) (s : State) :
    exec (.setTrigger e seq line selection report) s
      = .next (s.takeCommand e (.setTrigger e seq line selection report) seq
          (fun s => s.setTrigger line selection report)) := rfl

theorem exec_setGenerator (e : TransferId) (seq : BitVec 16) (p : GeneratorParams) (s : State) :
    exec (.setGenerator e seq p) s
      = .next (s.takeCommand e (.setGenerator e seq p) seq (fun s => s.setGenerator p)) := rfl

theorem exec_enableGenerator (e : TransferId) (seq : BitVec 16) (number : BitVec 8) (s : State) :
    exec (.enableGenerator e seq number) s
      = .next (s.takeCommand e (.enableGenerator e seq number) seq (fun s => s.enableGenerator number)) := rfl

theorem exec_disableGenerator (e : TransferId) (seq : BitVec 16) (number : BitVec 8) (s : State) :
    exec (.disableGenerator e seq number) s
      = .next (s.takeCommand e (.disableGenerator e seq number) seq (fun s => s.disableGenerator number)) := rfl

/-! ### The taking of a command that its checks refuse or pass -/

/-- A command that its checks refuse leaves its answer alone; one that they pass leaves its answer and the state `u`,
which is `s` with what the command changes (R121, R122). -/
theorem State.takeCommand_checked {s : State} (u : State) {e : TransferId} {record : Instr} {seq : BitVec 16}
    {index : Nat} {result : List Byte} {execute : State → State} (refusal : Option Status)
    (h : s.commandRead e index = true)
    (hx : execute (s.taken e record seq index)
      = refusal.elim ((u.taken e record seq index).answerOk result) (s.taken e record seq index).refuse) :
    (∀ status ∈ refusal,
      (s.answered e record seq index status [] .nobody).grantsTo (s.takeCommand e record seq execute))
    ∧ (refusal = none →
      (u.answered e record seq index .ok result .nobody).grantsTo (s.takeCommand e record seq execute)) := by
  cases refusal with
  | some status =>
    refine ⟨?_, nofun⟩
    rintro _ ⟨⟩
    exact State.takeCommand_answered s e record seq index status [] execute h hx
  | none =>
    refine ⟨nofun, fun _ => ?_⟩
    rw [State.takeCommand_eq s e record seq index execute h, hx, ← State.produceCmdDone_taken]
    exact State.finish_grantsTo _

/-! ### What the bytes of a command name, in numbers (R198) -/

theorem generatorOf_eq (b : BitVec 8) :
    generatorOf b = if 3 < b.toNat then none else some (Fin.ofNat 4 b.toNat) := by
  unfold generatorOf
  split_ifs with h
  · omega
  · exact congrArg some (Fin.ext (Nat.mod_eq_of_lt h).symm)
  · rfl
  · omega

theorem lineOf_eq (b : BitVec 8) : lineOf b = if 3 < b.toNat then none else some (Fin.ofNat 4 b.toNat) :=
  generatorOf_eq b

/-- The edge selection that a code up to 3 names. -/
def selectionOfCode : Nat → EdgeSelection
  | 0 => .noEdge
  | 1 => .rising
  | 2 => .falling
  | _ => .both

theorem selectionOf_eq (b : BitVec 8) :
    selectionOf b = if 3 < b.toNat then none else some (selectionOfCode b.toNat) := by
  unfold selectionOf
  rcases b.toNat with _ | _ | _ | _ | k <;> simp [selectionOfCode]

theorem selectionOfCode_eq_noEdge_iff (k : Nat) : selectionOfCode k = .noEdge ↔ k = 0 := by
  rcases k with _ | _ | _ | k <;> simp [selectionOfCode]

theorem reportOf_eq (b : BitVec 8) :
    reportOf b = if 1 < b.toNat then none else some (decide (b.toNat = 1)) := by
  unfold reportOf
  rcases b.toNat with _ | _ | k <;> simp

/-- The reference source that a code up to 3 names. -/
def sourceOfCode : Nat → RefSource
  | 0 => .oscA
  | 1 => .oscB
  | 2 => .ref0
  | _ => .ref1

theorem sourceOf_eq (b : BitVec 8) :
    sourceOf b = if 3 < b.toNat then none else some (sourceOfCode b.toNat) := by
  unfold sourceOf
  rcases b.toNat with _ | _ | _ | _ | k <;> simp [sourceOfCode]

theorem sourceOfCode_isExternal_iff (k : Nat) : (sourceOfCode k).isExternal = true ↔ 2 ≤ k := by
  rcases k with _ | _ | _ | k <;> simp [sourceOfCode, RefSource.isExternal]

theorem RefSource.isExternal_iff (r : RefSource) : r.isExternal = true ↔ r = .ref0 ∨ r = .ref1 := by
  cases r <;> simp [RefSource.isExternal]

/-! ### SET_TRIGGER -/

theorem State.lineAwaited_iff (s : State) (l : LineNo) :
    s.lineAwaited l = true ↔ ∃ x ∈ s.schedule.entries, x.condition = .trigger l ∧ x.state = .waiting := by
  simp [State.lineAwaited]

/-- The checks of R139 in their order, and what the line takes. -/
theorem State.setTrigger_eq (s : State) (line selection report : BitVec 8) :
    s.setTrigger line selection report =
      let l : LineNo := Fin.ofNat 4 line.toNat
      let refusal : Option Status :=
        if 3 < line.toNat then some .badParam
        else if 3 < selection.toNat ∨ 1 < report.toNat then some .badParam
        else if selection.toNat = 0 ∧ ∃ x ∈ s.schedule.entries, x.condition = .trigger l ∧ x.state = .waiting
          then some .busy
        else none
      refusal.elim
        ((s.putLine l { s.line l with
          selection := selectionOfCode selection.toNat
          report := decide (report.toNat = 1) }).answerOk [])
        s.refuse := by
  unfold State.setTrigger
  rw [lineOf_eq, selectionOf_eq, reportOf_eq]
  by_cases hline : 3 < line.toNat
  · simp [hline]
  by_cases hselection : 3 < selection.toNat
  · simp [hline, hselection]
  by_cases hreport : 1 < report.toNat
  · simp [hline, hselection, hreport]
  simp only [hline, hselection, hreport, if_false, or_self, Bool.and_eq_true, beq_iff_eq,
    selectionOfCode_eq_noEdge_iff, State.lineAwaited_iff]
  split_ifs <;> rfl

/-! ### SET_GENERATOR -/

/-- Checks that share one status refuse with it unless all of them pass. -/
theorem firstFailure_sameStatus (st : Status) (checks : List Bool) :
    firstFailure (checks.map (fun passes => (passes, st))) = if checks.all id then none else some st := by
  induction checks with
  | nil => rfl
  | cons passes checks ih =>
    rw [List.map_cons, firstFailure_cons, ih]
    cases passes <;> simp

/-- The checks of the numbers that SET_GENERATOR gives a generator, for a source code up to 3 (R125). -/
theorem firstFailure_generatorNumbers (p : GeneratorParams) (code frequency : Nat) :
    firstFailure
      [(p.divider != 0, .badParam),
       (!(sourceOfCode code).isExternal || (1000 ≤ p.frequency.toNat && p.frequency.toNat ≤ 50000000), .badParam),
       (p.lossWindow != 0, .badParam),
       (1000 * p.divider.toNat ≤ frequency && frequency ≤ 384000 * p.divider.toNat, .badParam)]
      = if p.divider.toNat = 0 ∨ (2 ≤ code ∧ (p.frequency.toNat < 1000 ∨ 50000000 < p.frequency.toNat))
          ∨ p.lossWindow.toNat = 0 ∨ frequency < 1000 * p.divider.toNat ∨ 384000 * p.divider.toNat < frequency
        then some .badParam else none := by
  refine (firstFailure_sameStatus .badParam [_, _, _, _]).trans ?_
  rw [← ite_not]
  refine if_congr ?_ rfl rfl
  simp [Bool.eq_false_iff, sourceOfCode_isExternal_iff, ← BitVec.toNat_inj]
  omega

/-- The checks of R125 in their order, those behind the state as one since they share a status, and the configuration
of R75. -/
theorem State.setGenerator_eq (s : State) (p : GeneratorParams) :
    s.setGenerator p =
      let g : GenNo := Fin.ofNat 4 p.generator.toNat
      let frequency := sourceFrequency (sourceOfCode p.source.toNat) p.frequency.toNat
      let refusal : Option Status :=
        if 3 < p.generator.toNat then some .badParam
        else if (s.generator g).state ≠ .off then some .badState
        else if 3 < p.source.toNat ∨ p.divider.toNat = 0
            ∨ (2 ≤ p.source.toNat ∧ (p.frequency.toNat < 1000 ∨ 50000000 < p.frequency.toNat))
            ∨ p.lossWindow.toNat = 0
            ∨ frequency < 1000 * p.divider.toNat ∨ 384000 * p.divider.toNat < frequency then some .badParam
        else none
      refusal.elim
        ((s.putGenerator g { s.generator g with
          source := sourceOfCode p.source.toNat
          frequency := frequency
          divider := p.divider.toNat
          lossWindow := p.lossWindow.toNat }).answerOk [])
        s.refuse := by
  unfold State.setGenerator
  rw [generatorOf_eq, sourceOf_eq]
  by_cases hgenerator : 3 < p.generator.toNat
  · simp [hgenerator]
  simp only [hgenerator, if_false, bne_iff_ne]
  by_cases hsource : 3 < p.source.toNat
  · simp only [hsource, if_true, true_or]
    split_ifs <;> rfl
  simp only [hsource, if_false, false_or, firstFailure_generatorNumbers]
  split_ifs <;> rfl

/-! ### ENABLE_GENERATOR -/

theorem State.lostWaiting_iff (s : State) (g : GenNo) :
    s.lostWaiting g = true ↔ ∃ r ∈ s.timebase.lostReports, r.generator = g := by
  simp [State.lostWaiting]

theorem Generator.enabled_eq (x : Generator) :
    x.enabled = { x with
      state := .running
      position := 0
      edges := 0
      monitor := if x.source = .ref0 ∨ x.source = .ref1 then some x.lossWindow else none } := by
  simp only [Generator.enabled, RefSource.isExternal_iff]

/-- The checks of R126 in their order, and the generator as R77 and R82 start it. -/
theorem State.enableGenerator_eq (s : State) (number : BitVec 8) :
    s.enableGenerator number =
      let g : GenNo := Fin.ofNat 4 number.toNat
      let x := s.generator g
      let refusal : Option Status :=
        if 3 < number.toNat then some .badParam
        else if x.state ≠ .off then some .badState
        else if ∃ r ∈ s.timebase.lostReports, r.generator = g then some .busy
        else none
      refusal.elim
        ((s.putGenerator g { x with
          state := .running
          position := 0
          edges := 0
          monitor := if x.source = .ref0 ∨ x.source = .ref1 then some x.lossWindow else none }).answerOk [])
        s.refuse := by
  unfold State.enableGenerator
  rw [generatorOf_eq]
  by_cases hnumber : 3 < number.toNat
  · simp [hnumber]
  simp only [hnumber, if_false, bne_iff_ne, State.lostWaiting_iff, Generator.enabled_eq]
  split_ifs <;> rfl

/-! ### DISABLE_GENERATOR -/

theorem State.mem_boundStreams (s : State) (g : GenNo) (n : StreamNo) :
    n ∈ s.boundStreams g ↔ (s.stream n).generator = g := by
  have hall : ∀ n : StreamNo, n ∈ Config.streams := by decide
  simp [State.boundStreams, hall n]

theorem State.port_quietLane (s : State) (m n : StreamNo) :
    (s.quietLane m).port n = if n = m then quietPort else s.port n := by
  split_ifs with h
  · rw [h, State.quietLane, State.port_putPort]
  · exact s.port_putPort_of_ne quietPort (Ne.symm h)

/-- Quieting lanes one after the other changes the ports alone. -/
theorem State.foldl_quietLane (s : State) (l : List StreamNo) :
    l.foldl State.quietLane s = { s with
      ports := Vector.ofFn (fun n => if n ∈ l then quietPort else s.port n) } := by
  induction l generalizing s with
  | nil =>
    have hports : s.ports = Vector.ofFn s.port := by
      ext i hi
      simp [State.port]
    simp [← hports]
  | cons m l ih =>
    have hlane : ∀ n, (if n ∈ l then quietPort else (s.quietLane m).port n)
        = if n ∈ m :: l then quietPort else s.port n := by
      intro n
      by_cases hl : n ∈ l <;> simp [hl, State.port_quietLane]
    rw [List.foldl_cons, ih]
    simp only [hlane]
    rfl

/-- The lanes of the bound streams are quiet, and nothing else has changed (R72). -/
theorem State.quietBound_eq (s : State) (g : GenNo) :
    s.quietBound g = { s with
      ports := Vector.ofFn (fun n => if (s.stream n).generator = g then quietPort else s.port n) } := by
  simp only [State.quietBound, State.foldl_quietLane, State.mem_boundStreams]

theorem Stream.holdsGenerator_iff (c : Stream) :
    c.holdsGenerator = true ↔ c.state = .armed ∨ c.state = .running ∨ c.state = .starved ∨ c.state = .draining
      ∨ c.state = .stopping := by
  simp [Stream.holdsGenerator, Stream.isRunning, or_assoc]

/-- The checks of R127 in their order; the generator enters OFF and its position is held (R78). -/
theorem State.disableGenerator_eq (s : State) (number : BitVec 8) :
    s.disableGenerator number =
      let g : GenNo := Fin.ofNat 4 number.toNat
      let x := s.generator g
      let refusal : Option Status :=
        if 3 < number.toNat then some .badParam
        else if x.state = .off then some .badState
        else if ∃ n, (s.stream n).generator = g ∧ ((s.stream n).state = .armed ∨ (s.stream n).state = .running
            ∨ (s.stream n).state = .starved ∨ (s.stream n).state = .draining ∨ (s.stream n).state = .stopping)
          then some .busy
        else none
      refusal.elim
        (({ s with
            ports := Vector.ofFn (fun n => if (s.stream n).generator = g then quietPort else s.port n) }.putGenerator g
          { x with state := .off, monitor := none }).answerOk (leBytes 8 x.position.toNat))
        s.refuse := by
  unfold State.disableGenerator
  rw [generatorOf_eq]
  by_cases hnumber : 3 < number.toNat
  · simp [hnumber]
  simp only [hnumber, if_false, beq_iff_eq, List.any_eq_true, State.mem_boundStreams, Stream.holdsGenerator_iff,
    State.quietBound_eq]
  split_ifs <;> rfl

end Sys2Proof.Machine

open Sys2Proof Sys2Proof.Machine

/-- Settles O18: both rows execute to one answer, of a zero result, in the state in which they are taken. -/
theorem nopAndUnknownAnswered : Obligations.NopAndUnknownAnswered := by
  intro s e seq index h
  exact ⟨⟨_, exec_nop e seq s, State.takeCommand_answered s e _ seq index .ok [] _ h rfl⟩,
    fun kind => ⟨_, exec_unknownCommandKind e seq kind s,
      State.takeCommand_answered s e _ seq index .unknown [] _ h rfl⟩⟩

/-- Settles O29, by `State.setTrigger_eq` in the state in which the command is taken: taking it leaves the lines and the
Schedule Table. -/
theorem setTriggerSelects : Obligations.SetTriggerSelects := by
  intro s e seq index line selection report h l i refusal selected
  exact ⟨_, exec_setTrigger e seq line selection report s,
    State.takeCommand_checked selected refusal h (State.setTrigger_eq _ line selection report)⟩

/-- Settles O20, by `State.enableGenerator_eq` in the state in which the command is taken: taking it leaves the
generators and the reports of lost references. -/
theorem enableGeneratorRuns : Obligations.EnableGeneratorRuns := by
  intro s e seq index number h g x i refusal running
  exact ⟨_, exec_enableGenerator e seq number s,
    State.takeCommand_checked running refusal h (State.enableGenerator_eq _ number)⟩

/-- Settles O21, by `State.disableGenerator_eq` in the state in which the command is taken: taking it leaves the
generators, the streams and the lanes. -/
theorem disableGeneratorHolds : Obligations.DisableGeneratorHolds := by
  intro s e seq index number h g x i refusal off
  exact ⟨_, exec_disableGenerator e seq number s,
    State.takeCommand_checked off refusal h (State.disableGenerator_eq _ number)⟩

/-- Settles O19, by `State.setGenerator_eq` in the state in which the command is taken, with the counted frequency
spelled out by source code (R74). -/
theorem setGeneratorConfigures : Obligations.SetGeneratorConfigures := by
  intro s e seq index p h g i source frequency refusal configured
  have hfrequency : sourceFrequency (sourceOfCode p.source.toNat) p.frequency.toNat = frequency := by
    simp only [frequency]
    rcases p.source.toNat with _ | _ | _ | k <;> rfl
  have hchecked := State.setGenerator_eq (s.taken e i seq index) p
  rw [hfrequency] at hchecked
  exact ⟨_, exec_setGenerator e seq p s, State.takeCommand_checked configured refusal h hchecked⟩

end

section
/-! The Root Block read that completes in LOADING: its checks in the numbers of section 10.2, and what the engine
becomes (R187, R188, R189). -/

namespace Sys2Proof.Machine

/-! ### What a check tests, in numbers -/

theorem isPowerOfTwo_iff (n : Nat) : isPowerOfTwo n = true ↔ ∃ k, n = 2 ^ k := by
  simp only [isPowerOfTwo, Bool.and_eq_true, bne_iff_ne, beq_iff_eq]
  constructor
  · rintro ⟨hn, hbits⟩
    exact (Nat.and_sub_one_eq_zero_iff_isPowerOfTwo hn).1 hbits
  · rintro ⟨k, rfl⟩
    have hn : 2 ^ k ≠ 0 := (Nat.two_pow_pos k).ne'
    exact ⟨hn, (Nat.and_sub_one_eq_zero_iff_isPowerOfTwo hn).2 ⟨k, rfl⟩⟩

/-- A ring size is legal when it is a power of two between two others: its exponent lies between theirs. -/
theorem isPowerOfTwo_between_iff (n low high : Nat) :
    (isPowerOfTwo n = true ∧ 2 ^ low ≤ n ∧ n ≤ 2 ^ high) ↔ ∃ k, low ≤ k ∧ k ≤ high ∧ n = 2 ^ k := by
  rw [isPowerOfTwo_iff]
  constructor
  · rintro ⟨⟨k, rfl⟩, hlow, hhigh⟩
    exact ⟨k, (Nat.pow_le_pow_iff_right Nat.one_lt_two).1 hlow,
      (Nat.pow_le_pow_iff_right Nat.one_lt_two).1 hhigh, rfl⟩
  · rintro ⟨k, hlow, hhigh, rfl⟩
    exact ⟨⟨k, rfl⟩, Nat.pow_le_pow_right Nat.two_pos hlow, Nat.pow_le_pow_right Nat.two_pos hhigh⟩

theorem fitsAddressSpace_iff (base : Addr) (size : Nat) :
    fitsAddressSpace base size = true ↔ base.toNat + size - 1 < 2 ^ 64 := by
  rw [← Bool.not_eq_false, fitsAddressSpace_eq_false_iff, Nat.not_le]

end Sys2Proof.Machine

namespace Sys2Proof

open Machine

/-- The checks of R187, each in the numbers of section 10.2. -/
theorem RootBlock.isValid_iff (b : RootBlock) :
    b.isValid = true ↔
      64 ∣ b.controlBase.toNat ∧ 32 ∣ b.eventBase.toNat
        ∧ (∃ k, 4 ≤ k ∧ k ≤ 10 ∧ b.controlSize.toNat = 2 ^ k)
        ∧ (∃ k, 6 ≤ k ∧ k ≤ 12 ∧ b.eventSize.toNat = 2 ^ k)
        ∧ 1 ≤ b.threshold.toNat ∧ b.threshold.toNat ≤ 64 ∧ b.holdoff.toNat ≤ 1000
        ∧ b.reserved21 = 0 ∧ b.reserved24 = 0
        ∧ b.controlBase.toNat + 64 * b.controlSize.toNat - 1 < 2 ^ 64
        ∧ b.eventBase.toNat + 32 * b.eventSize.toNat - 1 < 2 ^ 64 := by
  simp only [RootBlock.isValid, Bool.and_eq_true, decide_eq_true_eq, beq_iff_eq, fitsAddressSpace_iff,
    Nat.dvd_iff_mod_eq_zero, ← isPowerOfTwo_between_iff, Nat.reducePow]
  tauto

end Sys2Proof

namespace Sys2Proof.Machine

/-! ### What the completion leaves -/

theorem exec_rootBlockLoad (e : TransferId) (b : RootBlock) (s : State) :
    exec (.rootBlockLoad e b) s
      = .next (s.completeOk e (Transfer.isOf .rootBlock) (fun _ s => s.loadRootBlock b)) := rfl

/-- A Root Block read that arrives is examined with its entry freed, and the step closes with the arbiter (R178). -/
theorem exec_rootBlockLoad_of_arrives {s : State} {e : TransferId} {t : Transfer} (b : RootBlock)
    (h : s.arrives e t = true) (ht : t.requester = .rootBlock) :
    exec (.rootBlockLoad e b) s = .next ((s.putTransfer e none).loadRootBlock b).finish := by
  rw [exec_rootBlockLoad, State.completeOk, State.complete_arrives s e t _ _ _ h (by simp [Transfer.isOf, ht])]

theorem State.loadRootBlock_valid {s : State} {b : RootBlock} (h : s.engine.state = .loading) (hb : b.isValid = true) :
    s.loadRootBlock b = s.enterActive b := by
  simp [State.loadRootBlock, h, hb]

theorem State.loadRootBlock_invalid {s : State} {b : RootBlock} (h : s.engine.state = .loading)
    (hb : ¬b.isValid = true) : s.loadRootBlock b = s.enterHalted .rootInvalid := by
  simp [State.loadRootBlock, h, hb]

/-- Outside ACTIVE nothing is presented, and outside ISSUE nothing is granted (R174, R175). -/
theorem State.finish_eq_self {s : State} (hactive : s.isActive = false) (hmode : s.transfers.mode ≠ .issue) :
    s.finish = s := by
  simp [State.finish, hactive, hmode]

/-- A halted engine is left as it halted: it presents nothing, and its Transfer Unit is in SETTLE (R189, R190). -/
theorem State.finish_enterHalted (s : State) (cause : HaltCause) :
    (s.enterHalted cause).finish = s.enterHalted cause :=
  State.finish_eq_self (by simp [State.isActive, State.enterHalted]) nofun

end Sys2Proof.Machine

open Sys2Proof Sys2Proof.Machine

/-- Settles O12: by `RootBlock.isValid_iff` the block passes the checks of R187 exactly when it is valid, and the engine
then enters ACTIVE; otherwise it halts, and the close of the step grants nothing more. -/
theorem rootBlockLoads : Obligations.RootBlockLoads := by
  intro s e t b h ht hloading valid
  have hvalid : b.isValid = true ↔ valid := b.isValid_iff
  have hfreed : (s.putTransfer e none).engine.state = .loading := hloading
  rw [exec_rootBlockLoad_of_arrives b h ht, ← hvalid]
  constructor
  · intro hb
    rw [State.loadRootBlock_valid hfreed hb]
    exact ⟨_, rfl, State.finish_grantsTo _⟩
  · intro hb
    rw [State.loadRootBlock_invalid hfreed hb, State.finish_enterHalted]
    rfl

end

section
/-! The queue, the resets and the register window: what each row of the window does, and the statements about it
(sections 8.1, 8.2, 9.2 and 9.6). -/

namespace Sys2Proof.Machine

/-! ### The items of the banks after a reset -/

@[simp] theorem State.reset_transfer (e : TransferId) : State.reset.transfer e = none := by
  simp [State.transfer, State.reset, resetTransfers]

@[simp] theorem State.reset_stream (n : StreamNo) : State.reset.stream n = closedStream := by
  simp [State.stream, State.reset]

@[simp] theorem State.reset_port (n : StreamNo) : State.reset.port n = quietPort := by
  simp [State.port, State.reset]

@[simp] theorem State.reset_generator (g : GenNo) : State.reset.generator g = resetGenerator := by
  simp [State.generator, State.reset, resetTimebase]

@[simp] theorem State.reset_line (l : LineNo) : State.reset.line l = resetLine := by
  simp [State.line, State.reset, resetTimebase]

/-! ### Rows that the RESET pin discards (R193) -/

theorem State.unlessPin_released {s : State} (f : State → State) (h : s.pin = false) : s.unlessPin f = f s := by
  simp [State.unlessPin, h]

theorem State.unlessPin_held {s : State} (f : State → State) (h : s.pin = true) : s.unlessPin f = s := by
  simp [State.unlessPin, h]

theorem State.writeWindow_held {s : State} (offset width : Nat) (value : BitVec 64) (h : s.pin = true) :
    s.writeWindow offset width value = s := by
  simp [State.writeWindow, h]

theorem State.readWindow_held {s : State} (offset width : Nat) (h : s.pin = true) : s.readWindow offset width = 0 := by
  simp [State.readWindow, h]

theorem State.writeDeviceControl_reset {s : State} {w : BitVec 32} (h : wordReset w = true) :
    s.writeDeviceControl w = s.fullReset := by
  simp [State.writeDeviceControl, h]

/-- The write reaches no writable register: another width, another offset, or a Device Status write without its bit. -/
theorem isDiscardedWrite_eq_false_iff (offset width : Nat) (value : BitVec 64) :
    isDiscardedWrite offset width value = false ↔
      width = 4 ∧ (offset = 0x04 ∨ offset = 0x08 ∨ offset = 0x10 ∨ offset = 0x14 ∨ offset = 0x18)
        ∧ (offset = 0x08 → value.getLsbD 8 = true) := by
  simp only [isDiscardedWrite, writableOffset, Bool.or_eq_false_iff, bne_eq_false_iff_eq, Bool.not_eq_false',
    Bool.and_eq_false_imp, beq_iff_eq, Bool.or_eq_true, and_assoc, or_assoc]

theorem State.writeWindow_of_discarded (s : State) (offset width : Nat) (value : BitVec 64)
    (h : isDiscardedWrite offset width value = true) : s.writeWindow offset width value = s := by
  unfold State.writeWindow
  dsimp only
  split
  · rfl
  · rename_i hp
    have hw : width = 4 := by simp_all
    split
    case h_2 =>
      have h8 : ¬wordNotifyError (value.setWidth 32) = true := by
        simpa [isDiscardedWrite, hw, writableOffset, wordNotifyError] using h
      rw [State.writeDeviceStatus, if_neg h8]
    case h_6 => rfl
    all_goals simp [isDiscardedWrite, hw, writableOffset] at h

theorem decodeRegisterWrite_deviceControl {value : BitVec 64} (h : isDiscardedWrite 0x04 4 value = false) :
    decodeRegisterWrite 0x04 4 value =
      if wordReset (value.setWidth 32) then .reset (value.setWidth 32)
      else if wordEnable (value.setWidth 32) then .enable (value.setWidth 32)
      else .engineDisable (value.setWidth 32) := by
  unfold decodeRegisterWrite
  rw [h]
  rfl

theorem decodeRegisterWrite_ringNotify {value : BitVec 64} (h : isDiscardedWrite 0x18 4 value = false) :
    decodeRegisterWrite 0x18 4 value =
      if notifyRing (value.setWidth 32) == 0 then .controlRingNotify (value.setWidth 32)
      else if notifyRing (value.setWidth 32) == 9 then .eventRingRelease (value.setWidth 32)
      else .streamRingNotify (value.setWidth 32) := by
  unfold decodeRegisterWrite
  rw [h]
  rfl

theorem State.writeDeviceStatus_eq (s : State) (w : BitVec 32) :
    s.writeDeviceStatus w = { s with notifyError := s.notifyError && !w.getLsbD 8 } := by
  unfold State.writeDeviceStatus wordNotifyError
  cases w.getLsbD 8 <;> simp

/-! ### Words that the window shows -/

theorem toNat_low_word (p : BitVec 64) : (p.setWidth 32).toNat = p.toNat % 2 ^ 32 := BitVec.toNat_setWidth ..

theorem toNat_high_word (p : BitVec 64) : (p.extractLsb' 32 32).toNat = p.toNat / 2 ^ 32 := by
  have := p.isLt
  rw [BitVec.extractLsb'_toNat, Nat.shiftRight_eq_div_pow]
  omega

theorem low_word_of_append (high low : BitVec 32) : (high ++ low : BitVec 64).setWidth 32 = low := by
  apply BitVec.eq_of_toNat_eq
  have := low.isLt
  rw [toNat_low_word, BitVec.toNat_append, Nat.shiftLeft_eq, ← Nat.mul_comm (2 ^ 32), ← Nat.two_pow_add_eq_or_of_lt this]
  omega

theorem high_word_of_append (high low : BitVec 32) : (high ++ low : BitVec 64).extractLsb' 32 32 = high := by
  apply BitVec.eq_of_toNat_eq
  have := low.isLt
  have := high.isLt
  rw [toNat_high_word, BitVec.toNat_append, Nat.shiftLeft_eq, ← Nat.mul_comm (2 ^ 32), ← Nat.two_pow_add_eq_or_of_lt ‹_›]
  omega

/-! ### Ring Notify -/

/-- The ring that a notify names decides who takes it (R169). -/
theorem State.writeRingNotify_of_not_active {s : State} (w : BitVec 32) (h : s.engine.state ≠ .active) :
    s.writeRingNotify w = s.refuseNotify := by
  simp [State.writeRingNotify, h]

theorem State.writeRingNotify_command {s : State} {w : BitVec 32} (h : s.engine.state = .active)
    (hw : notifyRing w = 0) : s.writeRingNotify w = s.notifyCommand (notifyIndex w) := by
  simp [State.writeRingNotify, h, hw]

theorem State.writeRingNotify_stream {s : State} {w : BitVec 32} (n : StreamNo) (h : s.engine.state = .active)
    (hw : notifyRing w = n.val + 1) : s.writeRingNotify w = s.notifyStream n (notifyIndex w) := by
  have hn : Fin.ofNat 8 n.val = n := Fin.ext (Nat.mod_eq_of_lt n.isLt)
  simp [State.writeRingNotify, h, hw]

theorem State.writeRingNotify_events {s : State} {w : BitVec 32} (h : s.engine.state = .active)
    (hw : notifyRing w = 9) : s.writeRingNotify w = s.releaseEvents (notifyIndex w) := by
  simp [State.writeRingNotify, h, hw]

theorem State.writeRingNotify_unknown {s : State} {w : BitVec 32} (h : s.engine.state = .active)
    (hw : 10 ≤ notifyRing w) : s.writeRingNotify w = s.refuseNotify := by
  obtain ⟨k, hk⟩ : ∃ k, notifyRing w = k + 1 := ⟨notifyRing w - 1, by omega⟩
  have h8 : ¬k < 8 := by omega
  have h9 : k ≠ 8 := by omega
  simp [State.writeRingNotify, h, hk, h8, h9]

theorem exec_controlRingNotify {s : State} (w : BitVec 32) (h : s.pin = false) :
    exec (.controlRingNotify w) s = .next (s.writeRingNotify w) :=
  congrArg Host.Outcome.next (State.unlessPin_released _ h)

theorem exec_streamRingNotify {s : State} (w : BitVec 32) (h : s.pin = false) :
    exec (.streamRingNotify w) s = .next (s.writeRingNotify w) :=
  congrArg Host.Outcome.next (State.unlessPin_released _ h)

theorem exec_eventRingRelease {s : State} (w : BitVec 32) (h : s.pin = false) :
    exec (.eventRingRelease w) s = .next (s.writeRingNotify w) :=
  congrArg Host.Outcome.next (State.unlessPin_released _ h)

/-! ### Device Control -/

/-- Device Control with RESET 0 takes INTERRUPT_ENABLE and then ENABLE (R185). -/
theorem State.writeDeviceControl_eq {s : State} {w : BitVec 32} (h : wordReset w = false) :
    s.writeDeviceControl w =
      let s' : State := { s with engine := { s.engine with interruptEnable := wordInterruptEnable w } }
      if wordEnable w = true ∧ s.engine.state = .off then s'.enterLoading
      else if wordEnable w = false ∧ s.engine.state.enabled = true then s'.enterQuiescing
      else s' := by
  unfold State.writeDeviceControl
  simp only [h, Bool.false_eq_true, if_false]
  cases wordEnable w <;> cases s.engine.state <;> rfl

theorem exec_enable {s : State} (w : BitVec 32) (h : s.pin = false) :
    exec (.enable w) s = .next (s.writeDeviceControl w) :=
  congrArg Host.Outcome.next (State.unlessPin_released _ h)

theorem exec_engineDisable {s : State} (w : BitVec 32) (h : s.pin = false) :
    exec (.engineDisable w) s = .next (s.writeDeviceControl w) :=
  congrArg Host.Outcome.next (State.unlessPin_released _ h)

theorem exec_interruptEnable {s : State} (w : BitVec 32) (h : s.pin = false) :
    exec (.interruptEnable w) s = .next (s.writeDeviceControl w) :=
  congrArg Host.Outcome.next (State.unlessPin_released _ h)

end Sys2Proof.Machine

open Sys2Proof Sys2Proof.Machine

/-- Settles O1: both clauses are the two branches of `step`. -/
theorem stepRunsFrontCommand : Obligations.StepRunsFrontCommand :=
  ⟨fun s c rest h => by simp [step, h], fun s h => by simp [step, h]⟩

/-- Settles O2, by the items of each bank after a reset. -/
theorem resetLeaves : Obligations.ResetLeaves := by
  refine ⟨rfl, rfl, rfl, rfl, rfl, rfl, rfl, rfl, rfl, State.reset_transfer, rfl, rfl, rfl, fun n => ?_, fun g => ?_,
    fun l => ?_, rfl, rfl, rfl, rfl, rfl, rfl, rfl, rfl, rfl, rfl, rfl, rfl, rfl, rfl, rfl⟩
  · rw [State.reset_stream, State.reset_port]
    exact ⟨rfl, rfl, rfl, rfl, rfl, rfl, rfl, rfl, rfl⟩
  · rw [State.reset_generator]
    exact ⟨rfl, rfl, rfl, rfl⟩
  · rw [State.reset_line]
    exact ⟨rfl, rfl⟩

/-- Settles O3: a reset by register or pin is `State.fullReset`, and with the pin held each row of the window is
`State.unlessPin` or `State.writeWindow`, which then discard it. -/
theorem fullResetTaken : Obligations.FullResetTaken := by
  intro s kept
  refine ⟨fun w hp hw => ?_, rfl, rfl, fun hp => ⟨fun _ _ => State.readWindow_held _ _ hp, ?_, ?_⟩⟩
  · have hreset : exec (.reset w) s = .next s.fullReset :=
      congrArg Host.Outcome.next ((State.unlessPin_released _ hp).trans (State.writeDeviceControl_reset hw))
    rw [hreset, State.fullReset, hp]
    rfl
  · intro w i hi
    rcases hi with rfl | rfl | rfl | rfl | rfl | rfl | rfl | rfl | ⟨_, rfl⟩ <;>
      exact congrArg Host.Outcome.next (State.unlessPin_held _ hp)
  · intro offset width value
    exact congrArg Host.Outcome.next (State.writeWindow_held offset width value hp)

/-- Settles O5: a discarded write is its own row, and each writable register's write is the row of its word. -/
theorem everyWriteIsOneRow : Obligations.EveryWriteIsOneRow := by
  intro s offset width value
  cases hd : isDiscardedWrite offset width value with
  | true =>
    unfold decodeRegisterWrite
    rw [if_pos hd]
    exact ⟨hd, rfl⟩
  | false =>
    obtain ⟨rfl, hoffset, hbit⟩ := (isDiscardedWrite_eq_false_iff _ _ _).1 hd
    have row (f : State → State) (hf : s.pin = false → s.writeWindow offset 4 value = f s) :
        Host.Outcome.next (φ := Fault) (ρ := Refusal) (s.unlessPin f) = .next (s.writeWindow offset 4 value) := by
      cases hp : s.pin with
      | true => rw [State.unlessPin_held _ hp, State.writeWindow_held _ _ _ hp]
      | false => rw [State.unlessPin_released _ hp, hf hp]
    rcases hoffset with rfl | rfl | rfl | rfl | rfl
    · rw [decodeRegisterWrite_deviceControl hd]
      split_ifs with hreset henable
      · exact ⟨hreset, row _ fun hp => by simp [State.writeWindow, hp]⟩
      · exact ⟨by simp_all [WellFormed], row _ fun hp => by simp [State.writeWindow, hp]⟩
      · exact ⟨by simp_all [WellFormed], row _ fun hp => by simp [State.writeWindow, hp]⟩
    · unfold decodeRegisterWrite
      rw [hd]
      exact ⟨by simpa [WellFormed, wordNotifyError] using hbit rfl, row _ fun hp => by simp [State.writeWindow, hp]⟩
    · unfold decodeRegisterWrite
      rw [hd]
      exact ⟨rfl, row _ fun hp => by simp [State.writeWindow, hp]⟩
    · unfold decodeRegisterWrite
      rw [hd]
      exact ⟨rfl, row _ fun hp => by simp [State.writeWindow, hp]⟩
    · rw [decodeRegisterWrite_ringNotify hd]
      split_ifs with h0 h9
      · exact ⟨h0, row _ fun hp => by simp [State.writeWindow, hp]⟩
      · exact ⟨h9, row _ fun hp => by simp [State.writeWindow, hp]⟩
      · exact ⟨by simp_all [WellFormed], row _ fun hp => by simp [State.writeWindow, hp]⟩

/-- Settles O4: the registers by their words, the discarded writes by `State.writeWindow_of_discarded`, and Root Pointer
by the halves of the address it holds. -/
theorem writesDiscardedOrTaken : Obligations.WritesDiscardedOrTaken := by
  refine ⟨fun s hp => ?_, fun s offset width value h => ?_, fun s w hp => ⟨?_, fun hoff => ⟨?_, ?_⟩, fun hoff high => ?_⟩⟩
  · intro number code enabled line
    refine ⟨by simp [State.readWindow, hp, identityWord], ?_, ?_, ?_, ?_, ?_, ?_, ?_, ?_⟩
    · simp only [State.readWindow, hp, State.deviceControlWord, enabled]
      cases s.engine.state <;> cases s.engine.interruptEnable <;> rfl
    · simp only [State.readWindow, hp, State.deviceStatusWord, State.shownCause, number, code]
      cases s.engine.state <;> cases s.engine.cause <;> cases s.notifyError <;> rfl
    · simp [State.readWindow, hp]
    · simpa [State.readWindow, hp] using toNat_high_word s.engine.rootPointer
    · simp only [State.readWindow, hp, State.interruptStatusWord, State.lineLevel, line]
      cases s.events.pending <;> cases s.engine.halt <;> cases s.engine.interruptEnable <;> rfl
    · simp [State.readWindow, hp]
    · simpa [State.readWindow, hp] using toNat_high_word s.transfers.faultAddress
    · intro offset width h
      unfold State.readWindow
      split
      · rfl
      · have hw : width = 4 := by simp_all
        split <;> simp_all
  · exact congrArg Host.Outcome.next (State.writeWindow_of_discarded s offset width value h)
  · exact congrArg Host.Outcome.next ((State.unlessPin_released _ hp).trans (s.writeDeviceStatus_eq w))
  · refine ⟨_, congrArg Host.Outcome.next ((State.unlessPin_released _ hp).trans (if_pos (by simpa using hoff))), rfl, ?_, ?_⟩
    · simpa [State.readWindow, hp] using low_word_of_append _ w
    · simpa [State.readWindow, hp] using high_word_of_append _ w
  · refine ⟨_, congrArg Host.Outcome.next ((State.unlessPin_released _ hp).trans (if_pos (by simpa using hoff))), rfl, ?_, ?_⟩
    · simpa [State.readWindow, hp] using high_word_of_append w _
    · simpa [State.readWindow, hp] using low_word_of_append w _
  · exact congrArg Host.Outcome.next ((State.unlessPin_released _ hp).trans (if_neg (by simpa using hoff)))

/-- Settles O6: each ring's owner refuses the index, and the three rows are one write of Ring Notify. -/
theorem ringNotifyRefused : Obligations.RingNotifyRefused := by
  intro s w hp h
  suffices hr : s.writeRingNotify w = s.refuseNotify by
    rw [exec_controlRingNotify w hp, exec_streamRingNotify w hp, exec_eventRingRelease w hp, hr]
    exact ⟨rfl, rfl, rfl⟩
  by_cases hactive : s.engine.state = .active
  · rcases h with h | h | ⟨hw, h⟩ | ⟨n, hw, h⟩ | ⟨hw, h⟩
    · exact absurd hactive h
    · exact State.writeRingNotify_unknown hactive h
    · simp [State.writeRingNotify_command hactive hw, State.notifyCommand, Nat.not_lt.2 h]
    · rw [State.writeRingNotify_stream n hactive hw, State.notifyStream, if_neg]
      rcases h with h | h <;> simp [h]
    · simp [State.writeRingNotify_events hactive hw, State.releaseEvents, Nat.not_lt.2 h]
  · exact State.writeRingNotify_of_not_active w hactive

/-- Settles O8, by the cases of the table of R159. -/
theorem releaseFreesEntries : Obligations.ReleaseFreesEntries := by
  intro s w hp hactive hw hindex _ n freed
  rw [exec_eventRingRelease w hp, State.writeRingNotify_events hactive hw, State.releaseEvents, if_pos hindex]
  constructor
  · intro hposted
    have hnone : s.events.released (notifyIndex w) = none := by
      simp only [EventUnit.released, beq_iff_eq]
      rw [if_neg (show n ≠ 0 by omega), if_neg (show ¬n ≤ s.events.posted by omega)]
    rw [hnone]
    rfl
  · intro hposted
    have hsome : s.events.released (notifyIndex w) = some freed := by
      simp only [EventUnit.released, beq_iff_eq, freed]
      by_cases hn : n = 0
      · rw [if_pos hn, if_pos hn]
      · rw [if_neg hn, if_pos hposted, if_neg hn]
    rw [hsome]
    exact ⟨_, rfl, State.finish_grantsTo _⟩

/-- Settles O10: neither ENABLE branch of the write is taken. -/
theorem interruptEnableTakenAlone : Obligations.InterruptEnableTakenAlone := by
  intro s w hp hreset h
  refine ⟨fun i hi => ?_, rfl⟩
  suffices hw : s.writeDeviceControl w
      = { s with engine := { s.engine with interruptEnable := wordInterruptEnable w } } by
    rcases hi with rfl | rfl | rfl
    · rw [exec_interruptEnable w hp, hw]
    · rw [exec_enable w hp, hw]
    · rw [exec_engineDisable w hp, hw]
  rw [State.writeDeviceControl_eq hreset]
  dsimp only
  rw [if_neg, if_neg]
  · rintro ⟨he, hs⟩
    rcases h with h | h
    · rw [he, hs] at h
      cases h
    · rw [h] at hs
      cases hs
  · rintro ⟨he, hs⟩
    rcases h with h | h
    · rw [he, hs] at h
      cases h
    · rw [h] at hs
      cases hs

end

section
/-! What the examination of a stream can do (sections 1.6 and 2.6): one equation per operation, the changes that one
step of it makes to the context, and the rule that what every such change keeps is kept by the whole examination. -/

namespace Sys2Proof.Machine

/-! ### Banks -/

theorem mem_configStreams (n : StreamNo) : n ∈ Config.streams := by
  fin_cases n <;> decide

theorem mem_configGenerators (g : GenNo) : g ∈ Config.generators := by
  fin_cases g <;> decide

@[simp] theorem State.putStream_putStream (s : State) (n : StreamNo) (c d : Stream) :
    (s.putStream n c).putStream n d = s.putStream n d := by
  simp [State.putStream]

@[simp] theorem State.putStream_stream (s : State) (n : StreamNo) : s.putStream n (s.stream n) = s := by
  simp [State.putStream, State.stream]

theorem State.modifyStream_putStream (s : State) (n : StreamNo) (c : Stream) (f : Stream → Stream) :
    (s.putStream n c).modifyStream n f = s.putStream n (f c) := by
  simp [State.modifyStream]

@[simp] theorem State.accept_stream (s : State) (e : Event) (n : StreamNo) : (s.accept e).stream n = s.stream n := rfl

theorem State.accept_putStream (s : State) (e : Event) (n : StreamNo) (c : Stream) :
    (s.putStream n c).accept e = (s.accept e).putStream n c := rfl

@[simp] theorem State.handRemoval_stream (s : State) (n m : StreamNo) (r : ClearReason) :
    (s.handRemoval n r).stream m = s.stream m := by
  unfold State.handRemoval
  split <;> rfl

/-! ### Outstanding transfers -/

theorem State.outstanding_eq_zero_iff (s : State) (r : Requester) :
    s.outstanding r = 0 ↔ ∀ e t, s.transfer e = some t → t.requester ≠ r := by
  constructor
  · rintro h e t ht rfl
    exact s.outstanding_ne_zero e t ht h
  · intro h
    rw [State.outstanding, List.countP_eq_zero]
    intro o ho
    obtain ⟨i, hi, rfl⟩ := List.getElem_of_mem ho
    simp only [Vector.length_toList] at hi
    cases ht : s.transfer ⟨i, hi⟩ with
    | none =>
      have : s.transfers.table.toList[i] = none := by simpa [State.transfer] using ht
      simp [this]
    | some t =>
      have : s.transfers.table.toList[i] = some t := by simpa [State.transfer] using ht
      simpa [this] using h _ _ ht

theorem State.outstanding_congr {s t : State} (h : t.transfers.table = s.transfers.table) (r : Requester) :
    t.outstanding r = s.outstanding r := by
  simp [State.outstanding, h]

theorem State.noTransfers_congr {s t : State} (h : t.transfers.table = s.transfers.table) (n : StreamNo) :
    t.noTransfers n = s.noTransfers n := by
  simp [State.noTransfers, State.outstanding_congr h]

/-! ### Room in the Event Holding List (R149, R150) -/

theorem State.roomFor_iff (s : State) (p : Producer) :
    s.roomFor p = true ↔ s.placeFree = true ∧ ∀ q, q ≠ p → s.waits q = false := by
  have hall (q : Producer) : q ∈ producers := by
    fin_cases q <;> decide
  simp only [State.roomFor, Bool.and_eq_true, List.all_eq_true, Bool.or_eq_true, beq_iff_eq, Bool.not_eq_true']
  exact and_congr_right fun _ => ⟨fun h q hq => (h q (hall q)).resolve_left hq, fun h q _ => or_iff_not_imp_left.2 (h q)⟩

theorem State.placeFree_of_roomFor {s : State} {p : Producer} (h : s.roomFor p = true) : s.placeFree = true :=
  ((s.roomFor_iff p).1 h).1

theorem State.placeFree_iff (s : State) : s.placeFree = true ↔ s.events.holding.length < 8 := by
  exact decide_eq_true_iff

/-! ### One context through an examination -/

/-- The records of a staging list without the status at which one retired. -/
def unretired (l : List StagedRecord) : List StagedRecord := l.map (fun r => { r with retired := none })

theorem Stream.reportConsistent_iff (c : Stream) :
    c.reportConsistent = true ↔ (∀ o ∈ c.stopOwed, o.reason ≠ .command)
      ∧ (∀ r ∈ c.pendingReport, r.drainRun = true → r.event.isStopDone = true)
      ∧ (c.state = .closed → c.pendingReport = none ∧ c.stopOwed = none ∧ c.faultOwed = none) := by
  simp only [Stream.reportConsistent, Bool.and_eq_true, Option.all_eq_true, bne_iff_ne, Bool.or_eq_true,
    Bool.not_eq_true', Option.isNone_iff_eq_none, Option.mem_def, and_assoc, ← imp_iff_not_or]
  refine and_congr_right fun _ => and_congr_left fun _ => forall₂_congr fun r _ => ?_
  cases r.drainRun <;> simp

/-- The report of the context keeps its kind. -/
def Stream.keepsReports (c d : Stream) : Prop := c.reportConsistent = true → d.reportConsistent = true

/-- Context `d` is `c` after some of the reports of an examination, short of CLOSED: records leave at the head of the list,
the link fields stand while the state does, and a state that changes becomes IDLE. -/
structure Stream.Settles (c d : Stream) : Prop where
  body : d = { c with
    state := d.state
    drainLimit := d.drainLimit
    scheduleEntry := d.scheduleEntry
    destination := d.destination
    stopOrigin := d.stopOrigin
    faultCause := d.faultCause
    faultInRun := d.faultInRun
    drainAnswered := d.drainAnswered
    pendingReport := d.pendingReport
    staging := d.staging
    faultOwed := d.faultOwed
    stopOwed := d.stopOwed
    stopReported := d.stopReported
    stoppedFromFault := d.stoppedFromFault
    answerTo := d.answerTo }
  staging : unretired d.staging <:+ unretired c.staging
  entry : d.scheduleEntry = c.scheduleEntry ∨ c.isRunning = true ∧ d.scheduleEntry = none
  links : d.state = c.state ∧ d.drainLimit = c.drainLimit ∧ d.destination = c.destination ∧ d.stopOrigin = c.stopOrigin
      ∧ d.faultCause = c.faultCause ∧ d.faultInRun = c.faultInRun ∧ d.answerTo = c.answerTo
      ∧ d.stopReported = c.stopReported ∧ d.stoppedFromFault = c.stoppedFromFault ∧ d.drainAnswered = c.drainAnswered
    ∨ d.state = .idle ∧ d.drainLimit = none
      ∧ (c.reportConsistent = true → c.isRunning = true ∨ c.state = .stopping)
  reports : c.keepsReports d

theorem Stream.Settles.refl (c : Stream) : c.Settles c :=
  ⟨rfl, List.suffix_rfl, .inl rfl, .inl ⟨rfl, rfl, rfl, rfl, rfl, rfl, rfl, rfl, rfl, rfl⟩, id⟩

theorem Stream.isRunning_of_idle {c : Stream} (h : c.state = .idle) : c.isRunning = false := by
  simp [Stream.isRunning, h]

theorem Stream.isRunning_congr {c d : Stream} (h : d.state = c.state) : d.isRunning = c.isRunning := by
  simp [Stream.isRunning, h]

/-- A stream whose state an examination changes does not run afterwards. -/
theorem Stream.Settles.running {c d : Stream} (h : c.Settles d) (hd : d.isRunning = true) : c.isRunning = true := by
  rcases h.links with ⟨hs, _⟩ | ⟨hs, _⟩
  · rwa [← Stream.isRunning_congr hs]
  · simp [Stream.isRunning_of_idle hs] at hd

theorem Stream.Settles.trans {c d f : Stream} (h : c.Settles d) (k : d.Settles f) : c.Settles f where
  body := by rw [k.body, h.body]
  staging := k.staging.trans h.staging
  entry := by
    rcases k.entry with e | ⟨r, e⟩
    · rcases h.entry with e' | ⟨r', e'⟩
      · exact .inl (e.trans e')
      · exact .inr ⟨r', e.trans e'⟩
    · exact .inr ⟨h.running r, e⟩
  links := by
    rcases h.links with ⟨h1, h2, h3, h4, h5, h6, h7, h8, h9, h10⟩ | ⟨hs, hl, hr⟩
    · rcases k.links with ⟨k1, k2, k3, k4, k5, k6, k7, k8, k9, k10⟩ | ⟨ks, kl, kr⟩
      · exact .inl ⟨k1.trans h1, k2.trans h2, k3.trans h3, k4.trans h4, k5.trans h5, k6.trans h6, k7.trans h7, k8.trans h8,
          k9.trans h9, k10.trans h10⟩
      · refine .inr ⟨ks, kl, fun hc => ?_⟩
        rw [← Stream.isRunning_congr h1, ← h1]
        exact kr (h.reports hc)
    · rcases k.links with ⟨k1, k2, _⟩ | ⟨ks, kl, _⟩
      · exact .inr ⟨k1.trans hs, k2.trans hl, hr⟩
      · exact .inr ⟨ks, kl, hr⟩
  reports := fun hc => k.reports (h.reports hc)

/-! ### The steps of an examination -/

/-- The change that the placing of a report makes to its context (R41, R13, R15, R18, R64). -/
def Stream.placed (c : Stream) (e : Event) : Stream :=
  match e with
  | .bufferDone .. => { c with staging := c.staging.tail }
  | .streamStopDone _ _ reason _ => if reason == .command || c.isRunning then c.toIdle else c
  | _ => c

/-- The report ends the stream's run or its STOPPING. -/
def Stream.arrivesWith (c : Stream) (e : Event) : Bool :=
  match e with
  | .streamStopDone _ _ reason _ => reason == .command || c.isRunning
  | _ => false

theorem State.reportPlaced_eq (s : State) (n : StreamNo) (e : Event) :
    s.reportPlaced n e =
      let t := s.putStream n ((s.stream n).placed e)
      if (s.stream n).arrivesWith e then t.streamArrived n else t := by
  unfold State.reportPlaced Stream.placed Stream.arrivesWith
  cases e with
  | streamStopDone m g reason p =>
    dsimp only
    split
    · rfl
    · simp
  | bufferDone => rfl
  | _ => simp

/-- A report is accepted when there is room and it is not gated, and otherwise waits (R41, R137). -/
theorem State.produce_eq (s : State) (n : StreamNo) (c : Stream) (e : Event) (drainRun : Bool) :
    (s.putStream n c).produce n e drainRun =
      if (!drainRun || c.drainAnswered) && (s.putStream n c).roomFor (streamProducer n) then
        let t := (s.accept e).putStream n (c.placed e)
        if c.arrivesWith e then t.streamArrived n else t
      else s.putStream n { c with pendingReport := some ⟨e, drainRun⟩ } := by
  unfold State.produce
  rw [State.stream_putStream]
  have hb : (!(drainRun && !c.drainAnswered)) = (!drainRun || c.drainAnswered) := by
    cases drainRun <;> cases c.drainAnswered <;> rfl
  rw [hb]
  split
  · rw [State.reportPlaced_eq, State.accept_stream, State.stream_putStream, State.accept_putStream,
      State.putStream_putStream]
  · exact State.modifyStream_putStream ..

/-- What keeps `P` through one report of stream `n`. -/
structure State.KeptByReports (n : StreamNo) (P : State → Prop) : Prop where
  accept : ∀ s e, P s → s.placeFree = true → P (s.accept e)
  stream : ∀ s d, P s → (s.stream n).Settles d → P (s.putStream n d)
  close : ∀ s, P s → s.stoppingEnds n = true → (s.stream n).destination = some .closed → P (s.putStream n closedStream)
  quiet : ∀ s, P s → (s.stream n).state = .closed → P (s.quietLane n)
  arrived : ∀ s, P s → P (s.streamArrived n)
  hand : ∀ s r, P s → (s.stream n).isRunning = true → P (s.handRemoval n r)
  answer : ∀ s id, P s → (s.stream n).state = .idle → P (s.answerEntry id n)

namespace State.KeptByReports

variable {n : StreamNo} {P : State → Prop}

/-- A report keeps `P` when the context may become what its acceptance, and what its waiting, makes of it. -/
theorem produce (K : State.KeptByReports n P) {s : State} {c : Stream} {e : Event} {drainRun : Bool} (h : P s)
    (placed : (s.stream n).Settles (c.placed e))
    (waiting : (s.stream n).Settles { c with pendingReport := some ⟨e, drainRun⟩ }) :
    P ((s.putStream n c).produce n e drainRun) := by
  rw [State.produce_eq]
  split
  · rename_i hroom
    have hfree : s.placeFree = true := State.placeFree_of_roomFor (s := s.putStream n c) (Bool.and_eq_true_iff.1 hroom).2
    have hput := K.stream _ _ (K.accept s e h hfree) placed
    dsimp only
    split
    · exact K.arrived _ hput
    · exact hput
  · exact K.stream _ _ h waiting

end State.KeptByReports

theorem Stream.toIdle_settles {c d : Stream} (h : c.Settles d)
    (hd : c.reportConsistent = true → c.isRunning = true ∨ c.state = .stopping)
    (ht : c.keepsReports d.toIdle) : c.Settles d.toIdle where
  body := by
    conv_lhs => rw [Stream.toIdle, h.body]
    rfl
  staging := h.staging
  entry := h.entry
  links := .inr ⟨rfl, rfl, hd⟩
  reports := ht

theorem Stream.toIdle_keepsReports (c : Stream) : c.keepsReports c.toIdle := by
  intro h
  rw [Stream.reportConsistent_iff] at h ⊢
  exact ⟨h.1, h.2.1, nofun⟩

/-! ### What each step of an examination does -/

/-- The context once its head record has retired with a status (R13, R41). -/
def Stream.retireHead (c : Stream) (ends : Bool) (status : RetiredStatus) : Stream :=
  { c with
    staging := match c.staging with
      | [] => []
      | r :: rest => { r with retired := some status } :: rest
    scheduleEntry := if ends then none else c.scheduleEntry
    stopOwed := if ends then some ⟨.endRecord, c.state == .draining⟩ else c.stopOwed }

/-- The record ends its run with its retirement (R13, R32). -/
def Stream.endsWith (c : Stream) (r : StagedRecord) (status : RetiredStatus) : Bool :=
  r.isEnd && status == .done && c.isRunning

theorem State.retireHead_eq (s : State) (n : StreamNo) (r : StagedRecord) (status : RetiredStatus) :
    s.retireHead n r status =
      ((if (s.stream n).endsWith r status then s.handRemoval n .streamsLeft else s).putStream n
        ((s.stream n).retireHead ((s.stream n).endsWith r status) status)).produce n (bufferDone n r status) false := by
  have hends : (r.isEnd && status == .done && (s.stream n).isRunning) = (s.stream n).endsWith r status := rfl
  unfold State.retireHead
  dsimp only
  rw [hends]
  generalize (s.stream n).endsWith r status = ends
  cases ends with
  | false => rfl
  | true =>
    simp only [if_true, State.modifyStream, State.handRemoval_stream]
    rfl

/-- The head record that retires: it has no transfer outstanding and has not retired, and the stream is not CLOSED. -/
theorem State.retirableHead_eq_some {s : State} {n : StreamNo} {r : StagedRecord} {status : RetiredStatus}
    (h : s.retirableHead n = some (r, status)) :
    ∃ rest, (s.stream n).staging = r :: rest ∧ r.outstanding = 0 ∧ r.retired = none
      ∧ (s.stream n).retireStatus (s.noTransfers n) r = some status ∧ (s.stream n).state ≠ .closed := by
  unfold State.retirableHead at h
  dsimp only at h
  split at h
  · cases h
  · rename_i x rest hstaging
    split at h
    · rename_i hx
      obtain ⟨st, hst, heq⟩ := Option.map_eq_some_iff.1 h
      cases heq
      simp only [Bool.and_eq_true, beq_iff_eq, Option.isNone_iff_eq_none] at hx
      refine ⟨rest, hstaging, hx.1, hx.2, hst, fun hc => ?_⟩
      simp [Stream.retireStatus, hc] at hst
    · cases h

theorem Stream.retireHead_settles (c : Stream) (ends : Bool) (status : RetiredStatus) (e : Event)
    (hc : c.state ≠ .closed) (hends : ends = true → c.isRunning = true) :
    c.Settles { c.retireHead ends status with pendingReport := some ⟨e, false⟩ } where
  body := rfl
  staging := by
    simp only [Stream.retireHead]
    cases c.staging <;> simp [unretired]
  entry := by
    cases ends with
    | true => exact .inr ⟨hends rfl, rfl⟩
    | false => exact .inl rfl
  links := .inl ⟨rfl, rfl, rfl, rfl, rfl, rfl, rfl, rfl, rfl, rfl⟩
  reports := fun h => by
    rw [Stream.reportConsistent_iff] at h ⊢
    refine ⟨?_, by rintro _ ⟨⟩ ⟨⟩, fun hclosed => absurd hclosed hc⟩
    cases ends with
    | true =>
      rintro _ ⟨⟩
      exact nofun
    | false => exact h.1

theorem Stream.retireHead_placed_settles (c : Stream) (n : StreamNo) (r : StagedRecord) (ends : Bool)
    (status : RetiredStatus) (hc : c.state ≠ .closed)
    (hends : ends = true → c.isRunning = true) :
    c.Settles ((c.retireHead ends status).placed (bufferDone n r status)) := by
  have hplaced : (c.retireHead ends status).placed (bufferDone n r status)
      = { c.retireHead ends status with staging := c.staging.tail } := by
    unfold bufferDone
    split <;> cases h : c.staging <;> simp [Stream.placed, Stream.retireHead, h]
  rw [hplaced]
  refine ⟨rfl, ?_, ?_, .inl ⟨rfl, rfl, rfl, rfl, rfl, rfl, rfl, rfl, rfl, rfl⟩, fun h => ?_⟩
  · rw [unretired, List.map_tail]
    exact List.tail_suffix _
  · cases ends with
    | true => exact .inr ⟨hends rfl, rfl⟩
    | false => exact .inl rfl
  · rw [Stream.reportConsistent_iff] at h ⊢
    refine ⟨?_, h.2.1, fun hclosed => absurd hclosed hc⟩
    cases ends with
    | true =>
      rintro _ ⟨⟩
      exact nofun
    | false => exact h.1

/-- The STOP_DONE of a run, placed, ends the run in IDLE or stands alone; its context otherwise is as it was. -/
theorem Stream.placed_stopDone (c : Stream) (m : StreamNo) (g : GenNo) (reason : StopReason) (p : Position) :
    c.placed (.streamStopDone m g reason p) = if reason == .command || c.isRunning then c.toIdle else c := rfl

namespace State.KeptByReports

variable {n : StreamNo} {P : State → Prop}

theorem retireHead (K : State.KeptByReports n P) {s : State} {r : StagedRecord} {status : RetiredStatus} (h : P s)
    (hr : s.retirableHead n = some (r, status)) :
    P (s.retireHead n r status) := by
  obtain ⟨rest, _, _, _, _, hc⟩ := State.retirableHead_eq_some hr
  have hends : (s.stream n).endsWith r status = true → (s.stream n).isRunning = true := fun he => by
    simp only [Stream.endsWith, Bool.and_eq_true] at he
    exact he.2
  rw [State.retireHead_eq]
  have hu : (if (s.stream n).endsWith r status then s.handRemoval n .streamsLeft else s).stream n = s.stream n := by
    split
    · exact State.handRemoval_stream ..
    · rfl
  refine K.produce ?_ ?_ ?_
  · split
    · rename_i he
      exact K.hand s _ h (hends he)
    · exact h
  · rw [hu]
    exact Stream.retireHead_placed_settles _ _ _ _ _ hc hends
  · rw [hu]
    exact Stream.retireHead_settles _ _ _ _ hc hends

theorem endStopping (K : State.KeptByReports n P) {s : State} (h : P s)
    (hends : s.stoppingEnds n = true) : P (s.endStopping n) := by
  have hstate : (s.stream n).state = .stopping := by
    simp only [State.stoppingEnds, Bool.and_eq_true, beq_iff_eq] at hends
    exact hends.1.1
  have hidle : (s.stream n).Settles (s.stream n).toIdle :=
    Stream.toIdle_settles (Stream.Settles.refl _) (fun _ => .inr hstate) (Stream.toIdle_keepsReports _)
  have hentered : P (s.enterIdle n) := K.arrived _ (K.stream s _ h hidle)
  have hat : ((s.enterIdle n).stream n).state = .idle := by
    show ((s.modifyStream n Stream.toIdle).stream n).state = _
    rw [State.stream_modifyStream]
    rfl
  unfold State.endStopping
  dsimp only
  split
  · rename_i hd
    exact K.arrived _ (K.quiet _ (K.close s h hends hd) (by rw [State.stream_putStream]; rfl))
  · split
    · split
      · exact K.answer _ _ hentered hat
      · exact hentered
    · split
      · exact hentered
      · rw [← s.putStream_stream n, State.stream_putStream]
        refine K.produce h ?_ ?_
        · exact hidle
        · refine ⟨rfl, List.suffix_rfl, .inl rfl, .inl ⟨rfl, rfl, rfl, rfl, rfl, rfl, rfl, rfl, rfl, rfl⟩, fun hc => ?_⟩
          rw [Stream.reportConsistent_iff] at hc ⊢
          exact ⟨hc.1, by rintro _ ⟨⟩ ⟨⟩, fun hclosed => by simp [hstate] at hclosed⟩

/-- One step of an examination keeps `P`. -/
theorem settleStep (K : State.KeptByReports n P) {s t : State} (h : P s) (ht : s.settleStep n = some t) : P t := by
  unfold State.settleStep at ht
  dsimp only at ht
  split at ht
  · cases ht
  rename_i hpending
  have hpending : (s.stream n).pendingReport = none := by simpa using hpending
  have hlinks {c : Stream} : c.state = c.state ∧ c.drainLimit = c.drainLimit ∧ c.destination = c.destination
      ∧ c.stopOrigin = c.stopOrigin ∧ c.faultCause = c.faultCause ∧ c.faultInRun = c.faultInRun
      ∧ c.answerTo = c.answerTo ∧ c.stopReported = c.stopReported ∧ c.stoppedFromFault = c.stoppedFromFault
      ∧ c.drainAnswered = c.drainAnswered := ⟨rfl, rfl, rfl, rfl, rfl, rfl, rfl, rfl, rfl, rfl⟩
  split at ht
  · rename_i cause position howed
    cases ht
    refine K.produce h ⟨rfl, List.suffix_rfl, .inl rfl, .inl hlinks, fun hc => ?_⟩
      ⟨rfl, List.suffix_rfl, .inl rfl, .inl hlinks, fun hc => ?_⟩
    · rw [Stream.reportConsistent_iff] at hc ⊢
      exact ⟨hc.1, hc.2.1, fun hclosed => ⟨(hc.2.2 hclosed).1, (hc.2.2 hclosed).2.1, rfl⟩⟩
    · rw [Stream.reportConsistent_iff, howed] at hc
      rw [Stream.reportConsistent_iff]
      exact ⟨hc.1, by rintro _ ⟨⟩ ⟨⟩, fun hclosed => nomatch (hc.2.2 hclosed).2.2⟩
  rename_i howed
  split at ht
  · rename_i hr
    cases ht
    exact K.retireHead h hr
  split at ht
  · rename_i o hstop
    cases ht
    have howes (hc : (s.stream n).reportConsistent = true) :
        o.reason ≠ .command ∧ (s.stream n).state ≠ .closed := by
      rw [Stream.reportConsistent_iff, hstop] at hc
      exact ⟨hc.1 o rfl, fun hclosed => nomatch (hc.2.2 hclosed).2.1⟩
    have hput : (s.stream n).Settles { s.stream n with stopOwed := none } :=
      ⟨rfl, List.suffix_rfl, .inl rfl, .inl hlinks, fun hc => by
        have hclosed := (howes hc).2
        rw [Stream.reportConsistent_iff] at hc ⊢
        exact ⟨nofun, hc.2.1, fun h => absurd h hclosed⟩⟩
    refine K.produce h ?_ ⟨rfl, List.suffix_rfl, .inl rfl, .inl hlinks, fun hc => ?_⟩
    · rw [Stream.placed_stopDone]
      split
      · rename_i hcond
        refine Stream.toIdle_settles hput (fun hc => ?_) (fun hc => Stream.toIdle_keepsReports _ (hput.reports hc))
        simp only [Bool.or_eq_true, beq_iff_eq] at hcond
        exact .inl (hcond.resolve_left (howes hc).1)
      · exact hput
    · rw [Stream.reportConsistent_iff]
      exact ⟨nofun, by rintro _ ⟨⟩ _; rfl, fun hclosed => absurd hclosed (howes hc).2⟩
  split at ht
  · rename_i hdrain
    cases ht
    refine K.stream _ _ h ⟨rfl, List.suffix_rfl, .inl rfl, .inl hlinks, fun hc => ?_⟩
    simp only [Stream.drainComplete, Bool.and_eq_true, beq_iff_eq] at hdrain
    rw [Stream.reportConsistent_iff] at hc ⊢
    exact ⟨by rintro _ ⟨⟩; exact nofun, hc.2.1, fun hclosed => by simp [hdrain.1.1] at hclosed⟩
  split at ht
  · rename_i hends
    cases ht
    exact K.endStopping h hends
  · cases ht

theorem settleFuel (K : State.KeptByReports n P) (k : Nat) {s : State} (h : P s) : P (settleFuel k n s) := by
  induction k generalizing s with
  | zero => exact h
  | succ k ih =>
    unfold Machine.settleFuel
    split
    · exact h
    · rename_i t ht
      exact ih (K.settleStep h ht)

/-- The examination of a stream keeps what every report of it keeps. -/
theorem settle (K : State.KeptByReports n P) {s : State} (h : P s) : P (s.settle n) := K.settleFuel _ h

end State.KeptByReports

end Sys2Proof.Machine
end

section
/-! What the shared operations of the blocks can do to a state, as a rule: a predicate that each small change keeps is kept
by every operation made of them. The invariants of a run and the frames of the statements are cases of it. -/

namespace Sys2Proof.Machine

/-! ### The small changes -/

/-- The FIFO of `d` is that of `c`, or it is emptied as R66 gives. -/
def Stream.carriesFifo (c d : Stream) : Prop :=
  d.fifo = c.fifo ∧ d.fetchSplit = c.fetchSplit
    ∨ c.direction = .output ∧ d.fifo = [] ∧ d.fetchSplit = 0
    ∨ c.direction = .capture ∧ d.fifo = captureEmptied c.frameSize c.fifo ∧ d.fetchSplit = c.fetchSplit

/-- Context `d` is `c` after a change outside the ticks and the transfers: the shape, the ring and the run fields stand,
records leave at the head of the list, the FIFO stands or is emptied, and no run begins. -/
structure Stream.Carries (c d : Stream) : Prop where
  body : d = { c with
    state := d.state
    producer := d.producer
    drainLimit := d.drainLimit
    scheduleEntry := d.scheduleEntry
    destination := d.destination
    stopOrigin := d.stopOrigin
    faultCause := d.faultCause
    faultInRun := d.faultInRun
    drainAnswered := d.drainAnswered
    pendingReport := d.pendingReport
    markMissed := d.markMissed
    beginMissed := d.beginMissed
    endMissed := d.endMissed
    staging := d.staging
    fifo := d.fifo
    fetchSplit := d.fetchSplit
    faultOwed := d.faultOwed
    stopOwed := d.stopOwed
    stopReported := d.stopReported
    stoppedFromFault := d.stoppedFromFault
    answerTo := d.answerTo }
  staging : unretired d.staging <:+ unretired c.staging
  fifo : c.carriesFifo d
  running : d.isRunning = true → c.isRunning = true
  reports : c.keepsReports d

theorem Stream.Settles.carries {c d : Stream} (h : c.Settles d) : c.Carries d where
  body := by rw [h.body]
  staging := h.staging
  fifo := by
    rw [h.body]
    exact .inl ⟨rfl, rfl⟩
  running := h.running
  reports := h.reports

/-- A change of the command in progress. -/
inductive CommandUnit.Moves (c : CommandUnit) : CommandUnit → Prop
  | ready : Moves c { c with phase := .ready, inProgress := none, slot := none }
  | reports (p : CommandInProgress) (tell : Tell) (e : Event) (h : c.inProgress = some p) :
      Moves c { c with phase := .reporting, inProgress := some { p with tell := tell }, slot := some e }
  | awaits (result : List Byte) (streams : StreamSet) (entries : List EntryId) (h : c.inProgress.isSome = true) :
      Moves c { c with
        phase := .completing
        inProgress := c.inProgress.map (fun p => { p with result := result })
        streamWait := streams
        entryWait := entries }
  | arrived (n : StreamNo) : Moves c { c with streamWait := c.streamWait &&& ~~~streamBit n }
  | placed (id : EntryId) : Moves c { c with entryWait := c.entryWait.filter (fun x => x != id) }
  | waitsFor (id : EntryId) : Moves c { c with entryWait := c.entryWait ++ [id] }
  | indices (base : Addr) (size producer consumer : Nat) :
      Moves c { c with base := base, size := size, producer := producer, consumer := consumer }
  | takes (p : CommandInProgress) : Moves c { c with inProgress := some p }

/-- A change of the Schedule Table, of its offering order or of the claims on the Schedule Unit, but for the creation of an
entry. -/
inductive ScheduleUnit.Moves (x : ScheduleUnit) : ScheduleUnit → Prop
  | removes (id : EntryId) (n : StreamNo) (reason : ClearReason) :
      Moves x { x with entries := x.entries.map (fun e => if e.id == id then
        { e with streams := e.streams &&& ~~~streamBit n, lastRemoval := some reason } else e) }
  | answers (id : EntryId) (n : StreamNo) (e : ScheduleEntry) (h : x.entries.find? (fun e => e.id == id) = some e)
      (hs : e.state = .firing) :
      Moves x { x with entries := x.entries.map (fun e => if e.id == id then
        { e with answered := e.answered ||| streamBit n } else e) }
  | created (id : EntryId) :
      Moves x { x with entries := x.entries.map (fun e => if e.id == id then { e with creationAnswered := true } else e) }
  | decides (id : EntryId) (state : EntryState) (ev : Event) (hs : state = .firedUnreported ∨ state = .clearedUnreported)
      (he : ev.closesEntry id = true) (offering : List EntryId) :
      Moves x { x with
        entries := x.entries.map (fun e =>
          let e := if e.id == id then { e with state := state, closing := some ev } else e
          { e with behind := e.behind.filter (fun x => x != id) })
        offering := offering }
  | places (id : EntryId) :
      Moves x { x with
        entries := x.entries.filter (fun e => e.id != id)
        offering := x.offering.filter (fun y => y != id) }
  | hands (claim : RemovalClaim) : Moves x { x with removals := x.removals ++ [claim] }
  | takes (claim : RemovalClaim) : Moves x { x with removals := x.removals.erase claim }
  | takesLoss (claim : LossClaim) : Moves x { x with losses := x.losses.erase claim }
  | loses (claim : LossClaim) : Moves x { x with losses := x.losses ++ [claim] }
  | fires (g : GenNo) (position : Position) : Moves x { x with entries := fireEntries g position [] x.entries }

/-! ### The Schedule Unit -/

theorem State.entry?_id {s : State} {id : EntryId} {e : ScheduleEntry} (h : s.entry? id = some e) : e.id = id := by
  simpa using List.find?_some h

theorem State.entry?_mem {s : State} {id : EntryId} {e : ScheduleEntry} (h : s.entry? id = some e) :
    e ∈ s.schedule.entries := List.mem_of_find?_eq_some h

theorem ScheduleEntry.outcome_closes (e : ScheduleEntry) : e.outcome.2.closesEntry e.id = true := by
  unfold ScheduleEntry.outcome
  split
  · simp [Event.closesEntry]
  · split <;> simp [Event.closesEntry]

theorem ScheduleEntry.outcome_state (e : ScheduleEntry) :
    e.outcome.1 = .firedUnreported ∨ e.outcome.1 = .clearedUnreported := by
  unfold ScheduleEntry.outcome
  split
  · exact .inr rfl
  · split <;> exact .inl rfl

/-- The closing event that is offered is that of an entry of the table. -/
theorem State.offerableClosing_mem {s : State} {e : ScheduleEntry} {ev : Event} (h : s.offerableClosing = some (e, ev)) :
    e ∈ s.schedule.entries ∧ e.closing = some ev := by
  unfold State.offerableClosing at h
  split at h
  · cases h
  · split at h
    · cases h
    · rename_i x hx
      split at h
      · obtain ⟨ev', hev, heq⟩ := Option.map_eq_some_iff.1 h
        cases heq
        exact ⟨State.entry?_mem hx, hev⟩
      · cases h

/-- What keeps `P` through the operations of the Schedule Unit. -/
structure State.KeptBySchedule (P : State → Prop) : Prop where
  places : ∀ s e ev, P s → s.placeFree = true → s.offerableClosing = some (e, ev) → P (s.placeClosing e ev)
  schedule : ∀ s x, P s → s.schedule.Moves x → P { s with schedule := x }

namespace State.KeptBySchedule

variable {P : State → Prop}

theorem offerClosingFuel (K : State.KeptBySchedule P) (k : Nat) {s : State} (h : P s) : P (offerClosingFuel k s) := by
  induction k generalizing s with
  | zero => exact h
  | succ k ih =>
    unfold Machine.offerClosingFuel
    split
    · exact h
    · rename_i e ev ho
      split
      · rename_i hroom
        exact ih (K.places s e ev h (State.placeFree_of_roomFor hroom) ho)
      · exact h

theorem offerSchedule (K : State.KeptBySchedule P) {s : State} (h : P s) : P s.offerSchedule := K.offerClosingFuel _ h

theorem decideEntry (K : State.KeptBySchedule P) {s : State} {id : EntryId} {state : EntryState} {ev : Event} (h : P s)
    (hs : state = .firedUnreported ∨ state = .clearedUnreported) (he : ev.closesEntry id = true) :
    P (s.decideEntry id state ev) :=
  K.schedule _ _ h (.decides id state ev hs he _)

theorem examineEntry (K : State.KeptBySchedule P) {s : State} (id : EntryId) (h : P s) : P (s.examineEntry id) := by
  unfold State.examineEntry
  split
  · exact h
  · rename_i e he
    split
    · exact K.offerSchedule (K.decideEntry h e.outcome_state (State.entry?_id he ▸ e.outcome_closes))
    · exact h

theorem answerEntry (K : State.KeptBySchedule P) {s : State} (id : EntryId) (n : StreamNo) (h : P s) :
    P (s.answerEntry id n) := by
  unfold State.answerEntry
  split
  · exact h
  · rename_i e he
    split
    · rename_i hf
      simp only [Bool.and_eq_true, beq_iff_eq] at hf
      exact K.examineEntry id (K.schedule s _ h (.answers id n e he hf.1))
    · exact h

theorem removeFromEntry (K : State.KeptBySchedule P) {s : State} (id : EntryId) (n : StreamNo) (reason : ClearReason)
    (h : P s) : P (s.removeFromEntry id n reason) := by
  unfold State.removeFromEntry
  split
  · exact h
  · split
    · exact K.examineEntry id (K.schedule s _ h (.removes id n reason))
    · exact h

theorem clearEntry (K : State.KeptBySchedule P) {s : State} (id : EntryId) (reason : ClearReason) (h : P s) :
    P (s.clearEntry id reason) := by
  unfold State.clearEntry
  split
  · exact h
  · split
    · exact K.offerSchedule (K.decideEntry h (.inr rfl) (by simp [Event.closesEntry]))
    · exact h

theorem handRemoval (K : State.KeptBySchedule P) {s : State} (n : StreamNo) (reason : ClearReason) (h : P s) :
    P (s.handRemoval n reason) := by
  unfold State.handRemoval
  split
  · exact h
  · exact K.schedule s _ h (.hands _)

theorem loseEntries (K : State.KeptBySchedule P) {s : State} (g : GenNo) (h : P s) : P (s.loseEntries g) := by
  unfold State.loseEntries
  generalize (s.schedule.entries.filter _).map _ = ids
  induction ids generalizing s with
  | nil => exact h
  | cons id ids ih => exact ih (K.clearEntry id _ h)

end State.KeptBySchedule

/-- What keeps `P` through the operations that the blocks share, applied to streams of `on`. -/
structure State.Kept (on : StreamNo → Prop) (P : State → Prop) : Prop where
  accept : ∀ s e, P s → s.placeFree = true → P (s.accept e)
  context : ∀ s n d, P s → on n → (s.stream n).Carries d → P (s.putStream n d)
  close : ∀ s n, P s → on n → s.stoppingEnds n = true → P (s.putStream n closedStream)
  port : ∀ s n p, P s → on n → P (s.putPort n p)
  discard : ∀ s n, P s → on n → P (s.discardReads n)
  command : ∀ s c, P s → s.command.Moves c → P { s with command := c }
  schedule : ∀ s x, P s → s.schedule.Moves x → P { s with schedule := x }

/-- The placing of a closing event keeps what the changes it is made of keep. -/
theorem State.Kept.placeClosing {on : StreamNo → Prop} {P : State → Prop} (K : State.Kept on P) {s : State}
    (e : ScheduleEntry) (ev : Event) (h : P s) (hfree : s.placeFree = true) : P (s.placeClosing e ev) :=
  K.command _ _ (K.schedule _ _ (K.accept s ev h hfree) (.places e.id)) (.placed e.id)

/-- The Schedule Unit's operations keep `P`. -/
theorem State.Kept.scheduleOps {on : StreamNo → Prop} {P : State → Prop} (K : State.Kept on P) :
    State.KeptBySchedule P where
  places := fun _ e ev h hfree _ => K.placeClosing e ev h hfree
  schedule := K.schedule

namespace State.Kept

variable {on : StreamNo → Prop} {P : State → Prop}

/-! ### The Stream Unit -/

theorem reports (K : State.Kept on P) {n : StreamNo} (hn : on n) : State.KeptByReports n P where
  accept := K.accept
  stream := fun s d h hd => K.context s n d h hn hd.carries
  close := fun s h he _ => K.close s n h hn he
  quiet := fun s h _ => K.port s n _ h hn
  arrived := fun s h => K.command s _ h (.arrived n)
  hand := fun _ r h _ => K.scheduleOps.handRemoval n r h
  answer := fun _ id h _ => K.scheduleOps.answerEntry id n h

theorem settle (K : State.Kept on P) {n : StreamNo} (hn : on n) {s : State} (h : P s) : P (s.settle n) :=
  (K.reports hn).settle h

end State.Kept

/-- The context as its FIFO is emptied (R66). -/
def Stream.emptied (c : Stream) : Stream :=
  match c.direction with
  | .output => { c with fifo := [], fetchSplit := 0 }
  | .capture => { c with fifo := captureEmptied c.frameSize c.fifo }

/-- A state whose outstanding data reads of an OUTPUT stream are marked for discard (R66). -/
def State.readsMarked (s : State) (n : StreamNo) : State :=
  match (s.stream n).direction with
  | .output => s.discardReads n
  | .capture => s

theorem State.discardReads_streams (s : State) (n : StreamNo) : (s.discardReads n).streams = s.streams := by
  unfold State.discardReads
  generalize Config.streams = l
  induction l generalizing s with
  | nil => rfl
  | cons e l ih => exact (ih _).trans rfl

@[simp] theorem State.readsMarked_stream (s : State) (n m : StreamNo) : (s.readsMarked n).stream m = s.stream m := by
  unfold State.readsMarked
  split
  · simp [State.stream, State.discardReads_streams]
  · rfl

theorem State.emptyFifo_eq (s : State) (n : StreamNo) :
    s.emptyFifo n = (s.readsMarked n).putStream n (s.stream n).emptied := by
  unfold State.emptyFifo State.readsMarked Stream.emptied
  dsimp only
  split <;> rename_i hd <;> simp only [hd]

/-- The context as it enters FAULTED (R19). -/
def Stream.faultedWith (c : Stream) (cause : FaultCause) (position : Position) : Stream :=
  { c.emptied with
    state := .faulted
    faultCause := some cause
    faultInRun := c.isRunning && !c.inTail
    scheduleEntry := none
    drainLimit := none
    faultOwed := some (cause, position) }

/-- The context as it enters STOPPING (R16, R20, R21). -/
def Stream.stoppingWith (c : Stream) (destination : Destination) (origin : Option StopOrigin)
    (answerTo : Option EntryId) : Stream :=
  { c.emptied with
    state := .stopping
    destination := some destination
    stopOrigin := origin
    drainLimit := none
    scheduleEntry := none
    faultCause := none
    stopReported := c.isEnded
    stoppedFromFault := c.state == .faulted
    answerTo := answerTo }

theorem State.enterFaulted_eq (s : State) (n : StreamNo) (cause : FaultCause) (position : Position) :
    s.enterFaulted n cause position =
      ((s.handRemoval n cause.clearReason).readsMarked n).putStream n ((s.stream n).faultedWith cause position) := by
  unfold State.enterFaulted
  dsimp only
  rw [State.emptyFifo_eq, State.modifyStream_putStream, State.handRemoval_stream]
  rfl

theorem State.enterStopping_eq (s : State) (n : StreamNo) (destination : Destination) (origin : Option StopOrigin)
    (answerTo : Option EntryId) :
    s.enterStopping n destination origin answerTo =
      (s.readsMarked n).putStream n ((s.stream n).stoppingWith destination origin answerTo) := by
  unfold State.enterStopping
  rw [State.emptyFifo_eq, State.modifyStream_putStream]
  congr 1
  unfold Stream.stoppingWith Stream.emptied
  cases (s.stream n).direction <;> rfl

theorem Stream.emptied_body (c : Stream) : c.emptied = { c with fifo := c.emptied.fifo, fetchSplit := c.emptied.fetchSplit } := by
  unfold Stream.emptied
  split <;> rfl

theorem Stream.emptied_carriesFifo (c : Stream) : c.carriesFifo c.emptied := by
  unfold Stream.carriesFifo Stream.emptied
  split
  · rename_i h
    exact .inr (.inl ⟨h, rfl, rfl⟩)
  · rename_i h
    exact .inr (.inr ⟨h, rfl, rfl⟩)

theorem Stream.faultedWith_carries (c : Stream) (cause : FaultCause) (position : Position) :
    c.Carries (c.faultedWith cause position) where
  body := by rw [Stream.faultedWith, Stream.emptied_body]
  staging := by
    rw [Stream.faultedWith, Stream.emptied_body]
  fifo := c.emptied_carriesFifo
  running := nofun
  reports := fun h => by
    rw [Stream.faultedWith, Stream.emptied_body, Stream.reportConsistent_iff]
    rw [Stream.reportConsistent_iff] at h
    exact ⟨h.1, h.2.1, nofun⟩

theorem Stream.stoppingWith_carries (c : Stream) (destination : Destination) (origin : Option StopOrigin)
    (answerTo : Option EntryId) : c.Carries (c.stoppingWith destination origin answerTo) where
  body := by rw [Stream.stoppingWith, Stream.emptied_body]
  staging := by
    rw [Stream.stoppingWith, Stream.emptied_body]
  fifo := c.emptied_carriesFifo
  running := nofun
  reports := fun h => by
    rw [Stream.stoppingWith, Stream.emptied_body, Stream.reportConsistent_iff]
    rw [Stream.reportConsistent_iff] at h
    exact ⟨h.1, h.2.1, nofun⟩

/-- A change of link fields alone carries the context. -/
theorem Stream.carries_links {c d : Stream}
    (body : d = { c with
      state := d.state
      producer := d.producer
      drainLimit := d.drainLimit
      scheduleEntry := d.scheduleEntry
      drainAnswered := d.drainAnswered
      markMissed := d.markMissed
      beginMissed := d.beginMissed
      endMissed := d.endMissed })
    (running : d.isRunning = true → c.isRunning = true)
    (closed : d.state = .closed → c.state = .closed) : c.Carries d where
  body := by rw [body]
  staging := by rw [body]
  fifo := by rw [body]; exact .inl ⟨rfl, rfl⟩
  running := running
  reports := fun h => by
    rw [Stream.reportConsistent_iff] at h ⊢
    rw [body]
    exact ⟨h.1, h.2.1, fun hd => h.2.2 (closed hd)⟩

namespace State.Kept

variable {on : StreamNo → Prop} {P : State → Prop}

theorem readsMarked (K : State.Kept on P) {n : StreamNo} (hn : on n) {s : State} (h : P s) : P (s.readsMarked n) := by
  unfold State.readsMarked
  split
  · exact K.discard s n h hn
  · exact h

theorem enterFaulted (K : State.Kept on P) {n : StreamNo} (hn : on n) {s : State} (cause : FaultCause) (p : Position)
    (h : P s) : P (s.enterFaulted n cause p) := by
  rw [State.enterFaulted_eq]
  refine K.context _ _ _ (K.readsMarked hn (K.scheduleOps.handRemoval n _ h)) hn ?_
  rw [State.readsMarked_stream, State.handRemoval_stream]
  exact Stream.faultedWith_carries _ _ _

theorem fault (K : State.Kept on P) {n : StreamNo} (hn : on n) {s : State} (cause : FaultCause) (p : Position)
    (h : P s) : P (s.fault n cause p) :=
  K.settle hn (K.enterFaulted hn cause p h)

theorem enterStopping (K : State.Kept on P) {n : StreamNo} (hn : on n) {s : State} (d : Destination)
    (o : Option StopOrigin) (a : Option EntryId) (h : P s) : P (s.enterStopping n d o a) := by
  rw [State.enterStopping_eq]
  refine K.context _ _ _ (K.readsMarked hn h) hn ?_
  rw [State.readsMarked_stream]
  exact Stream.stoppingWith_carries _ _ _ _

/-- The placing of a report that waited. -/
theorem placePending (K : State.Kept on P) {n : StreamNo} (hn : on n) {s : State} (h : P s) (hfree : s.placeFree = true) :
    P (s.placePending n) := by
  unfold State.placePending
  split
  · exact h
  · rename_i r hr
    have hput : (s.stream n).Carries ({ s.stream n with pendingReport := none }.placed r.event) := by
      have hnone : (s.stream n).Carries { s.stream n with pendingReport := none } :=
        ⟨rfl, List.suffix_rfl, .inl ⟨rfl, rfl⟩, id, fun hc => by
          rw [Stream.reportConsistent_iff] at hc ⊢
          exact ⟨hc.1, nofun, fun hd => ⟨rfl, (hc.2.2 hd).2⟩⟩⟩
      unfold Stream.placed
      split
      · refine ⟨rfl, ?_, .inl ⟨rfl, rfl⟩, id, hnone.reports⟩
        rw [unretired, List.map_tail]
        exact List.tail_suffix _
      · split
        · exact ⟨rfl, List.suffix_rfl, .inl ⟨rfl, rfl⟩, nofun,
            fun hc => Stream.toIdle_keepsReports _ (hnone.reports hc)⟩
        · exact hnone
      · exact hnone
    rw [State.reportPlaced_eq]
    simp only [State.modifyStream, State.accept_stream, State.stream_putStream,
      State.putStream_putStream]
    split
    · exact K.command _ _ (K.context _ n _ (K.accept s _ h hfree) hn hput) (.arrived n)
    · exact K.context _ n _ (K.accept s _ h hfree) hn hput

/-! ### The Command Unit -/

theorem cmdDonePlaced (K : State.Kept on P) {s : State} (tell : Tell) (ht : ∀ n, tell = .drain n → on n) (h : P s) :
    P (s.cmdDonePlaced tell) := by
  have hready := K.command s _ h .ready
  unfold State.cmdDonePlaced
  cases tell with
  | nobody => exact hready
  | entry id => exact K.scheduleOps.offerSchedule (K.schedule _ _ hready (.created id))
  | drain n =>
    have hn := ht n rfl
    refine K.settle hn ?_
    have hput := K.context _ n { s.stream n with drainAnswered := true } hready hn
      (Stream.carries_links rfl id id)
    split
    · rename_i hroom
      exact K.placePending hn hput (State.placeFree_of_roomFor (Bool.and_eq_true_iff.1 hroom).2)
    · exact hput

theorem produceCmdDone (K : State.Kept on P) {s : State} (status : Status) (result : List Byte) (tell : Tell)
    (ht : ∀ n, tell = .drain n → on n) (h : P s) : P (s.produceCmdDone status result tell) := by
  unfold State.produceCmdDone
  split
  · exact h
  · rename_i p hp
    dsimp only
    split
    · rename_i hroom
      exact K.cmdDonePlaced tell ht (K.accept s _ h (State.placeFree_of_roomFor hroom))
    · exact K.command s _ h (.reports p tell _ hp)

theorem examineCommand (K : State.Kept on P) {s : State} (h : P s) : P s.examineCommand := by
  unfold State.examineCommand
  split
  · split
    · exact h
    · exact K.produceCmdDone _ _ .nobody nofun h
  · exact h

theorem settleStream (K : State.Kept on P) {n : StreamNo} (hn : on n) {s : State} (h : P s) : P (s.settleStream n) :=
  K.examineCommand (K.settle hn h)

theorem awaitCompletion (K : State.Kept on P) {s : State} (result : List Byte) (streams : StreamSet)
    (entries : List EntryId) (hp : s.command.inProgress.isSome = true) (h : P s) :
    P (s.awaitCompletion result streams entries) :=
  K.command s _ h (.awaits result streams entries hp)

end State.Kept

end Sys2Proof.Machine
end

section
/-! What the commands and the ticks can do to a state: what each small change keeps is kept by each command's execution
and by the tick of each stream. -/

namespace Sys2Proof.Machine

/-! ### The small changes -/

/-- The context once its ready head frame has passed the lane (R57). -/
def Stream.passed (c : Stream) (t : Position) (p : Place) (rest : List Place) : Stream :=
  { c with
    fifo := rest
    dataFrames := if p.gap then c.dataFrames else raise .dataFrames c.dataFrames
    gapFrames := if p.gap then raise .gapFrames c.gapFrames else c.gapFrames
    lastFrame := p.data }.modifyRecord p.ring (fun r => r.passFrame t)

/-- The context once a lane frame has been assigned to its record (R59). -/
def Stream.assigned (c : Stream) (t : Position) (r : StagedRecord) (frame : List Byte) : Stream :=
  { c with
    fifo := if r.record.isGap then c.fifo else c.fifo ++ [assignedPlace r.ringIndex r.progress frame]
    dataFrames := if r.record.isGap then c.dataFrames else raise .dataFrames c.dataFrames
    gapFrames := if r.record.isGap then raise .gapFrames c.gapFrames else c.gapFrames }.modifyRecord r.ringIndex
      (fun r => r.assignFrame t)

/-- The context as a moved frame ends its starve run (R12, R57). -/
def Stream.recovered (c : Stream) : Stream :=
  { c with
    starveRun := 0
    state := if c.state == .starved then .running else c.state }

/-- A change that a tick makes to a context. -/
inductive Stream.Ticks (c : Stream) : Stream → Prop
  | begins (t : Position) (h : c.state = .armed) : Ticks c (c.beginRun t)
  | starves : Ticks c c.countStarved
  | tails : Ticks c c.tailTick
  | recovers : Ticks c c.recovered
  | passes (t : Position) (p : Place) (rest : List Place) (h : c.fifo = p :: rest) : Ticks c (c.passed t p rest)
  | assigns (t : Position) (r : StagedRecord) (frame : List Byte) (hd : c.direction = .capture)
      (hr : c.current = some r) (room : r.record.isGap = true ∨ 0 < c.freePlaces)
      (hf : c.shapeLegal = true → frame.length = c.frameSize) : Ticks c (c.assigned t r frame)

/-- A change that a command, a reference edge or a loss makes to a generator; `held` says that a stream runs on it. -/
inductive Generator.Moves (held : Prop) (x : Generator) : Generator → Prop
  | configured (source : RefSource) (frequency divider lossWindow : Nat) (h : x.state = .off) (hd : divider ≠ 0) :
      Moves held x { x with source := source, frequency := frequency, divider := divider, lossWindow := lossWindow }
  | enabled (h : x.state = .off) : Moves held x x.enabled
  | disabled (h : ¬held) : Moves held x { x with state := .off, monitor := none }
  | lost : Moves held x { x with state := .lost, monitor := none }
  | edge (h : x.edges + 1 < x.divider) (m : Option Nat) : Moves held x { x with edges := x.edges + 1, monitor := m }

/-- `t` is `s` but for registers, lanes, trigger lines, claims on the Stream Unit, Fault Address, the arbiter's pointers and
the event counts; events leave at the head of the holding list. -/
structure State.SameBlocks (s t : State) : Prop where
  table : t.transfers.table = s.transfers.table
  command : t.command = s.command
  streams : t.streams = s.streams
  schedule : t.schedule = s.schedule
  generators : t.timebase.generators = s.timebase.generators
  holding : t.events.holding <:+ s.events.holding

/-- `t` is `s` as `State.SameBlocks` says, in the same engine state. -/
structure State.SameCore (s t : State) : Prop extends State.SameBlocks s t where
  pin : t.pin = s.pin
  engine : t.engine = s.engine
  mode : t.transfers.mode = s.transfers.mode
  lead : t.transfers.lead = s.transfers.lead

/-- A stream runs on generator `g`. -/
def State.runsOnGenerator (s : State) (g : GenNo) : Prop := ∃ n, (s.stream n).generator = g ∧ (s.stream n).isRunning = true

/-- What keeps `P` through the commands and the events outside the ticks. -/
structure State.KeptByOps (P : State → Prop) : Prop extends State.Kept (fun _ => True) P where
  frame : ∀ s t, P s → State.SameCore s t → P t
  opens : ∀ s n p c, P s → (s.stream n).state = .closed → openedStream p = some c → P (s.putStream n c)
  generator : ∀ s g x, P s → (s.generator g).Moves (s.runsOnGenerator g) x → P (s.putGenerator g x)
  adds : ∀ s e, P s → s.tableFree = true → (∀ x ∈ s.schedule.entries, x.id ≠ e.id) → e.state = .waiting →
    e.answered = 0 → e.closing = none → P (s.addEntry e)
  dues : ∀ s l, P s → P (s.makeDue l)

/-- What keeps `P` through the ticks too. -/
structure State.KeptByTicks (P : State → Prop) : Prop extends State.KeptByOps P where
  ticks : ∀ s n d, P s → (s.stream n).Ticks d → P (s.putStream n d)
  generatorTicks : ∀ s g, P s → P (s.putGenerator g (s.generator g).tick)

/-! ### An id that no entry holds (R95) -/

theorem freeId_unused (entries : List ScheduleEntry) (fuel : Nat) (start : EntryId)
    (h : ∃ k < fuel, ∀ x ∈ entries, x.id ≠ start + BitVec.ofNat 8 k) :
    ∀ x ∈ entries, x.id ≠ freeId entries fuel start := by
  induction fuel generalizing start with
  | zero => exact absurd h.choose_spec.1 (Nat.not_lt_zero _)
  | succ fuel ih =>
    unfold freeId
    split
    · rename_i hany
      obtain ⟨k, hk, hfree⟩ := h
      cases k with
      | zero =>
        obtain ⟨x, hx, hid⟩ := List.any_eq_true.1 hany
        exact absurd (by simpa using hid) (hfree x hx)
      | succ k =>
        refine ih (start + 1) ⟨k, by omega, fun x hx => ?_⟩
        have hsucc : start + 1 + BitVec.ofNat 8 k = start + BitVec.ofNat 8 (k + 1) := by
          rw [BitVec.add_assoc, Nat.add_comm k 1, BitVec.ofNat_add]
          rfl
        rw [hsucc]
        exact hfree x hx
    · rename_i hany
      intro x hx hid
      exact hany (List.any_eq_true.2 ⟨x, hx, by simpa using hid⟩)

/-- Of eight ids in a row, fewer than eight entries leave one free. -/
theorem exists_free_id (entries : List ScheduleEntry) (start : EntryId) (h : entries.length < 8) :
    ∃ k < 8, ∀ x ∈ entries, x.id ≠ start + BitVec.ofNat 8 k := by
  by_contra hno
  push Not at hno
  have hsub : (List.range 8).map (fun k => start + BitVec.ofNat 8 k) ⊆ entries.map (fun x => x.id) := by
    intro id hid
    obtain ⟨k, hk, rfl⟩ := List.mem_map.1 hid
    obtain ⟨x, hx, he⟩ := hno k (List.mem_range.1 hk)
    exact List.mem_map.2 ⟨x, hx, he⟩
  have hnodup : ((List.range 8).map (fun k => start + BitVec.ofNat 8 k)).Nodup := by
    refine List.Nodup.map_on ?_ List.nodup_range
    intro i hi j hj hij
    rw [List.mem_range] at hi hj
    have := congrArg BitVec.toNat (BitVec.add_right_inj start |>.1 hij)
    simp only [BitVec.toNat_ofNat] at this
    omega
  have hle := (List.subperm_of_subset hnodup hsub).length_le
  simp only [List.length_map, List.length_range] at hle
  omega

theorem State.newEntry_unused {s : State} (kind : EntryKind) (g : GenNo) (condition : Condition) (target : Position)
    (set : StreamSet) (h : s.tableFree = true) :
    ∀ x ∈ s.schedule.entries, x.id ≠ (s.newEntry kind g condition target set).id :=
  freeId_unused _ _ _ (exists_free_id _ _ (of_decide_eq_true h))

theorem firstFailure_eq_none_iff (checks : List (Bool × Status)) :
    firstFailure checks = none ↔ ∀ x ∈ checks, x.1 = true := by
  induction checks with
  | nil => simp [firstFailure]
  | cons x checks ih =>
    obtain ⟨b, st⟩ := x
    rw [firstFailure_cons]
    cases b <;> simp [ih]

/-! ### Commands -/

theorem Stream.returned_carries (c : Stream) (e : ScheduleEntry) : c.Carries (c.returned e) := by
  have hrefl : c.Carries c := Stream.carries_links rfl id id
  unfold Stream.returned
  split
  · exact hrefl
  · split
    · split
      · exact Stream.carries_links rfl nofun nofun
      · exact hrefl
    · exact Stream.carries_links rfl id id

theorem Stream.named_carries (c : Stream) (e : ScheduleEntry) :
    c.Carries { c with scheduleEntry := some e.id, state := if e.kind == .start then .armed else c.state } := by
  cases e.kind with
  | start => exact Stream.carries_links rfl nofun nofun
  | stop => exact Stream.carries_links rfl id id

theorem Stream.starved_carries (c : Stream) :
    c.Carries { c with state := if c.state == .running then .starved else c.state } := by
  refine Stream.carries_links rfl (fun hd => ?_) (fun hd => ?_)
  · cases hc : c.state <;> simp_all [Stream.isRunning]
  · cases hc : c.state <;> simp_all

/-- An operation applied to each item of a list keeps what each application keeps. -/
theorem State.foldl_kept {α : Type} {P : State → Prop} (f : State → α → State) (l : List α)
    (hf : ∀ s, ∀ a ∈ l, P s → P (f s a)) {s : State} (h : P s) : P (l.foldl f s) := by
  induction l generalizing s with
  | nil => exact h
  | cons a l ih => exact ih (fun s b hb => hf s b (by simp [hb])) (hf s a (by simp) h)

theorem State.takeOrder_snd (s : State) : s.takeOrder.2 = { s with orderChoices := s.takeOrder.2.orderChoices } := by
  unfold State.takeOrder
  split <;> rfl

namespace State.Kept

variable {on : StreamNo → Prop} {P : State → Prop}

theorem refuse (K : State.Kept on P) {s : State} (status : Status) (h : P s) : P (s.refuse status) :=
  K.produceCmdDone _ _ .nobody nofun h

theorem answerOk (K : State.Kept on P) {s : State} (result : List Byte) (h : P s) : P (s.answerOk result) :=
  K.produceCmdDone _ _ .nobody nofun h

/-- A change of link fields keeps `P`. -/
theorem links (K : State.Kept on P) {s : State} {n : StreamNo} (hn : on n) (f : Stream → Stream) (h : P s)
    (hf : (s.stream n).Carries (f (s.stream n))) : P (s.modifyStream n f) :=
  K.context s n _ h hn hf

theorem returnStreams (K : State.Kept on P) {s : State} (e : ScheduleEntry)
    (hon : ∀ n, e.streams.getLsbD n.val = true → on n) (h : P s) : P (s.returnStreams e) :=
  State.foldl_kept _ _ (fun _ n hn h => K.links (hon n (List.mem_filter.1 hn).2) _ h (Stream.returned_carries _ e)) h

theorem cancel (K : State.Kept on P) {s : State} (target : EntryId) (hp : s.command.inProgress.isSome = true)
    (hon : ∀ e ∈ s.entry? target, e.state = .waiting → ∀ n : StreamNo, e.streams.getLsbD n.val = true → on n)
    (h : P s) : P (s.cancel target) := by
  unfold State.cancel
  split
  · exact K.refuse _ h
  · rename_i e he
    split
    · exact K.refuse _ h
    · rename_i hw
      have hw : e.state = .waiting := by simpa using hw
      have hcommand : (s.returnStreams e).command = s.command :=
        State.foldl_kept (P := fun t => t.command = s.command)
          (fun s n => s.modifyStream n (fun c => c.returned e)) (streamsOf e.streams) (fun _ _ _ h => h) rfl
      exact K.examineCommand (K.scheduleOps.clearEntry _ _ (K.awaitCompletion _ _ _ (by rw [hcommand]; exact hp)
        (K.returnStreams e (hon e he hw) h)))

theorem nameStreams (K : State.Kept on P) {s : State} (e : ScheduleEntry)
    (hon : ∀ n, e.streams.getLsbD n.val = true → on n) (h : P s) : P (s.nameStreams e) :=
  State.foldl_kept _ _ (fun _ n hn h => K.links (hon n (List.mem_filter.1 hn).2) _ h
    (Stream.named_carries _ _)) h

theorem closeStream (K : State.Kept on P) {s : State} (number : BitVec 8) (hp : s.command.inProgress.isSome = true)
    (hon : ∀ n ∈ streamOf number, on n) (h : P s) : P (s.closeStream number) := by
  unfold State.closeStream
  split
  · exact K.refuse _ h
  · rename_i n hn
    dsimp only
    split
    · exact K.refuse _ h
    · exact K.examineCommand (K.settle (hon n hn) (K.enterStopping (hon n hn) _ _ _ (K.awaitCompletion _ _ _ hp h)))

theorem stopRemoval (K : State.Kept on P) {s : State} {n : StreamNo} (hn : on n) (h : P s) : P (s.stopRemoval n) := by
  unfold State.stopRemoval
  split
  · exact h
  · dsimp only
    refine K.scheduleOps.removeFromEntry _ _ _ ?_
    have hfreed := K.links hn (fun c => { c with scheduleEntry := none }) h (Stream.carries_links rfl id id)
    split
    · exact K.command _ _ hfreed (.waitsFor _)
    · exact hfreed

theorem stopStream (K : State.Kept on P) {s : State} {n : StreamNo} (hn : on n) (h : P s) : P (s.stopStream n) := by
  unfold State.stopStream
  split
  · exact K.links hn _ h (Stream.carries_links rfl nofun nofun)
  · exact K.settle hn (K.enterStopping hn _ _ _ h)

theorem stopDrain (K : State.Kept on P) {s : State} (p : ScheduleParams)
    (hon : ∀ n, p.streams.getLsbD n.val = true → on n) (h : P s) : P (s.stopDrain p) := by
  unfold State.stopDrain
  split
  · rename_i n hn
    have hmem : n ∈ streamsOf p.streams := by simp [hn]
    have hn := hon n (List.mem_filter.1 hmem).2
    dsimp only
    split
    · exact K.refuse _ h
    · rename_i hchecks
      have hrunning : (s.stream n).isRunning = true := (firstFailure_eq_none_iff _).1 hchecks _ (.head _)
      refine K.produceCmdDone _ _ _ (fun m hm => by cases hm; exact hn) (K.settle hn (K.context s n _ h hn ?_))
      exact ⟨rfl, List.suffix_rfl, .inl ⟨rfl, rfl⟩, fun _ => hrunning, fun hc => by
        rw [Stream.reportConsistent_iff] at hc ⊢
        exact ⟨hc.1, hc.2.1, nofun⟩⟩
  · exact K.refuse _ h

end State.Kept

/-! ### Frames opened by the ticks -/

theorem State.delivered_length {s : State} {n : StreamNo} (bits : List Bool) (h : (s.stream n).shapeLegal = true) :
    (s.delivered n bits).length = (s.stream n).frameSize := by
  have hwidth : (s.stream n).width = 16 ∨ (s.stream n).width = 32 := by
    simp only [Stream.shapeLegal, Bool.and_eq_true, Bool.or_eq_true, beq_iff_eq] at h
    exact h.2
  unfold State.delivered
  dsimp only
  split
  · rw [frameOfBits_length, Stream.frameSize]
    rcases hwidth with hw | hw <;> rw [hw] <;> omega
  · simp [Stream.zeroFrame]

theorem Stream.noticed_carries (c : Stream) (b e m : Nat) :
    c.Carries { c with beginMissed := b, endMissed := e, markMissed := m } :=
  Stream.carries_links rfl id id

namespace State.Kept

variable {on : StreamNo → Prop} {P : State → Prop}

theorem offerStarveBegin (K : State.Kept on P) {n : StreamNo} (hn : on n) {s : State} (t : Position) (h : P s) :
    P (s.offerStarveBegin n t) := by
  unfold State.offerStarveBegin
  dsimp only
  split
  · rename_i hfree
    exact K.context _ n _ (K.accept s _ h hfree) hn (Stream.noticed_carries ..)
  · exact K.context _ n _ h hn (Stream.noticed_carries ..)

theorem offerStarveEnd (K : State.Kept on P) {n : StreamNo} (hn : on n) {s : State} (t : Position) (k : BitVec 64)
    (h : P s) : P (s.offerStarveEnd n t k) := by
  unfold State.offerStarveEnd
  dsimp only
  split
  · rename_i hfree
    exact K.context _ n _ (K.accept s _ h hfree) hn (Stream.noticed_carries ..)
  · exact K.context _ n _ h hn (Stream.noticed_carries ..)

theorem offerMark (K : State.Kept on P) {n : StreamNo} (hn : on n) {s : State} (tag : BitVec 32) (t : Position)
    (h : P s) : P (s.offerMark n tag t) := by
  unfold State.offerMark
  dsimp only
  split
  · rename_i hfree
    exact K.context _ n _ (K.accept s _ h hfree) hn (Stream.noticed_carries ..)
  · exact K.context _ n _ h hn (Stream.noticed_carries ..)

theorem markFirst (K : State.Kept on P) {n : StreamNo} (hn : on n) {s : State} (r : StagedRecord) (first : Bool)
    (t : Position) (h : P s) : P (s.markFirst n r first t) := by
  unfold State.markFirst
  split
  · exact K.offerMark hn _ _ h
  · exact h

theorem openPeriod (K : State.Kept on P) {n : StreamNo} (hn : on n) {s : State} (frame : List Byte) (h : P s) :
    P (s.openPeriod n frame) :=
  K.port s n _ h hn

end State.Kept

/-- What keeps `P` through the tick of stream `n`. -/
structure State.KeptByTick (n : StreamNo) (P : State → Prop) : Prop extends State.Kept (fun m => m = n) P where
  ticks : ∀ s d, P s → (s.stream n).Ticks d → P (s.putStream n d)

namespace State.KeptByTick

variable {n : StreamNo} {P : State → Prop}

theorem endStarveRun (K : State.KeptByTick n P) {s : State} (t : Position) (h : P s) : P (s.endStarveRun n t) := by
  have hnotice : P (if (s.stream n).starveRun != 0 then s.offerStarveEnd n t (s.stream n).starveRun else s) := by
    split
    · exact K.offerStarveEnd rfl _ _ h
    · exact h
  exact K.ticks _ _ hnotice .recovers

theorem starvedTick (K : State.KeptByTick n P) {s : State} (t : Position) (h : P s) : P (s.starvedTick n t) := by
  have hcounted : P (s.modifyStream n Stream.countStarved) := K.ticks s _ h .starves
  unfold State.starvedTick
  dsimp only
  split
  · exact K.fault rfl _ _ hcounted
  · have hnotice : P (if (s.stream n).starveRun == 0 then
        (s.modifyStream n Stream.countStarved).offerStarveBegin n t else s.modifyStream n Stream.countStarved) := by
      split
      · exact K.offerStarveBegin rfl _ hcounted
      · exact hcounted
    exact K.links rfl _ hnotice (Stream.starved_carries _)

theorem passFrame (K : State.KeptByTick n P) {s : State} (t : Position) (p : Place) (rest : List Place)
    (hp : (s.stream n).fifo = p :: rest) (h : P s) : P (s.passFrame n t p rest) := by
  have hpassed : P (((s.openPeriod n p.data)).putStream n ((s.stream n).passed t p rest)) :=
    K.ticks _ _ (K.openPeriod rfl _ h) (.passes t p rest hp)
  unfold State.passFrame
  dsimp only
  refine K.endStarveRun t ?_
  split
  · exact K.markFirst rfl _ _ _ hpassed
  · exact hpassed

theorem outputTick (K : State.KeptByTick n P) {s : State} (t : Position) (h : P s) : P (s.outputTick n t) := by
  unfold State.outputTick
  dsimp only
  split
  · rename_i hp
    split
    · exact K.passFrame t _ _ hp h
    · exact K.starvedTick t (K.openPeriod rfl _ h)
  · exact K.starvedTick t (K.openPeriod rfl _ h)

theorem captureTick (K : State.KeptByTick n P) {s : State} (t : Position) (frame : List Byte)
    (hd : (s.stream n).direction = .capture)
    (hf : (s.stream n).shapeLegal = true → frame.length = (s.stream n).frameSize) (h : P s) :
    P (s.captureTick n t frame) := by
  unfold State.captureTick
  dsimp only
  split
  · exact K.starvedTick t h
  · rename_i r hr
    split
    · rename_i hroom
      refine K.endStarveRun t (K.markFirst rfl _ _ _ (K.ticks s _ h (.assigns t r frame hd hr ?_ hf)))
      simpa using hroom
    · exact K.starvedTick t h

theorem runTick (K : State.KeptByTick n P) {s : State} (t : Position) (bits : List Bool) (h : P s) :
    P (s.runTick n t bits) := by
  unfold State.runTick
  dsimp only
  split
  · exact K.outputTick t h
  · rename_i hd
    exact K.captureTick t _ hd (fun hs => State.delivered_length bits hs) (K.openPeriod rfl _ h)

theorem idlePeriod (K : State.KeptByTick n P) {s : State} (h : P s) : P (s.idlePeriod n) := K.openPeriod rfl _ h

theorem tickStream (K : State.KeptByTick n P) {s : State} (bits : List Bool) (t : Position) (h : P s) :
    P (s.tickStream bits t n) := by
  unfold State.tickStream
  dsimp only
  split
  · exact h
  · rename_i harmed
    split
    · split
      · exact K.examineCommand (K.scheduleOps.answerEntry _ _ (K.settle rfl (K.runTick t bits (K.ticks s _ h (.begins t harmed)))))
      · exact K.idlePeriod h
    · exact K.idlePeriod h
  all_goals try exact K.idlePeriod h
  all_goals
    split
    · exact K.settleStream rfl (K.enterStopping rfl _ _ _ (K.idlePeriod h))
    · split
      · exact K.ticks _ _ (K.openPeriod rfl _ h) .tails
      · exact K.settleStream rfl (K.runTick t bits h)

end State.KeptByTick

namespace State.KeptByOps

variable {P : State → Prop}

theorem takeOrder (K : State.KeptByOps P) {s : State} (h : P s) : P s.takeOrder.2 := by
  rw [State.takeOrder_snd]
  exact K.frame s _ h ⟨⟨rfl, rfl, rfl, rfl, rfl, List.suffix_rfl⟩, rfl, rfl, rfl, rfl⟩

theorem openStream (K : State.KeptByOps P) {s : State} (p : OpenParams) (h : P s) : P (s.openStream p) := by
  unfold State.openStream
  split
  · exact K.refuse _ h
  · rename_i n _
    split
    · exact K.refuse _ h
    · rename_i hc
      split
      · exact K.refuse _ h
      · rename_i c ho
        exact K.answerOk _ (K.opens s n p c h (by simpa using hc) ho)

theorem createEntry (K : State.KeptByOps P) {s : State} (kind : EntryKind) (g : GenNo) (condition : Condition)
    (p : ScheduleParams) (hfree : s.tableFree = true) (h : P s) : P (s.createEntry kind g condition p) := by
  unfold State.createEntry
  refine K.produceCmdDone _ _ _ nofun (K.nameStreams _ (fun _ _ => trivial) ?_)
  exact K.adds s _ h hfree (State.newEntry_unused _ _ _ _ _ hfree) rfl rfl rfl

theorem start (K : State.KeptByOps P) {s : State} (p : ScheduleParams) (h : P s) : P (s.start p) := by
  unfold State.start
  split
  · dsimp only
    split
    · exact K.refuse _ h
    · rename_i hchecks
      exact K.createEntry _ _ _ _ ((firstFailure_eq_none_iff _).1 hchecks (s.tableFree, .noEntry) (by simp)) h
  · exact K.refuse _ h

theorem stopEntry (K : State.KeptByOps P) {s : State} (p : ScheduleParams) (condition : Condition) (h : P s) :
    P (s.stopEntry p condition) := by
  unfold State.stopEntry
  split
  · exact K.refuse _ h
  · dsimp only
    split
    · exact K.refuse _ h
    · rename_i hchecks
      exact K.createEntry _ _ _ _ ((firstFailure_eq_none_iff _).1 hchecks (s.tableFree, .noEntry) (by simp)) h

theorem stopNow (K : State.KeptByOps P) {s : State} (p : ScheduleParams) (hp : s.command.inProgress.isSome = true)
    (h : P s) : P (s.stopNow p) := by
  unfold State.stopNow
  dsimp only
  split
  · exact K.refuse _ h
  · split
    · exact K.refuse _ h
    · refine K.examineCommand (State.foldl_kept _ _ (fun _ _ _ h => K.stopStream trivial h)
        (State.foldl_kept _ _ (fun _ _ _ h => K.stopRemoval trivial h)
          (K.awaitCompletion _ _ _ ?_ (K.takeOrder h))))
      rw [State.takeOrder_snd]
      exact hp

theorem stop (K : State.KeptByOps P) {s : State} (p : ScheduleParams) (hp : s.command.inProgress.isSome = true)
    (h : P s) : P (s.stop p) := by
  unfold State.stop
  split
  · exact K.stopNow p hp h
  · split
    · exact K.stopDrain p (fun _ _ => trivial) h
    · split
      · exact K.stopEntry p _ h
      · exact K.refuse _ h

theorem setTrigger (K : State.KeptByOps P) {s : State} (line selection report : BitVec 8) (h : P s) :
    P (s.setTrigger line selection report) := by
  unfold State.setTrigger
  split
  · split
    · exact K.refuse _ h
    · exact K.answerOk _ (K.frame s _ h ⟨⟨rfl, rfl, rfl, rfl, rfl, List.suffix_rfl⟩, rfl, rfl, rfl, rfl⟩)
  · exact K.refuse _ h

theorem setGenerator (K : State.KeptByOps P) {s : State} (p : GeneratorParams) (h : P s) : P (s.setGenerator p) := by
  unfold State.setGenerator
  split
  · exact K.refuse _ h
  · rename_i g _
    split
    · exact K.refuse _ h
    · rename_i hoff
      split
      · exact K.refuse _ h
      · dsimp only
        split
        · exact K.refuse _ h
        · rename_i hchecks
          have hdivider := (firstFailure_eq_none_iff _).1 hchecks (_, .badParam) (.head _)
          refine K.answerOk _ (K.generator s g _ h (.configured _ _ _ _ (by simpa using hoff) ?_))
          intro h0
          simp only [bne_iff_ne, ne_eq] at hdivider
          exact hdivider (BitVec.eq_of_toNat_eq h0)

theorem enableGenerator (K : State.KeptByOps P) {s : State} (number : BitVec 8) (h : P s) :
    P (s.enableGenerator number) := by
  unfold State.enableGenerator
  split
  · exact K.refuse _ h
  · rename_i g _
    split
    · exact K.refuse _ h
    · rename_i hoff
      split
      · exact K.refuse _ h
      · exact K.answerOk _ (K.generator s g _ h (.enabled (by simpa using hoff)))

theorem quietBound (K : State.KeptByOps P) {s : State} (g : GenNo) (h : P s) : P (s.quietBound g) :=
  State.foldl_kept _ _ (fun s n _ h => K.port s n _ h trivial) h

theorem disableGenerator (K : State.KeptByOps P) {s : State} (number : BitVec 8) (h : P s) :
    P (s.disableGenerator number) := by
  unfold State.disableGenerator
  split
  · exact K.refuse _ h
  · rename_i g _
    dsimp only
    split
    · exact K.refuse _ h
    · split
      · exact K.refuse _ h
      · rename_i hfree
        have hquiet : (s.quietBound g).generator g = s.generator g := by
          rw [State.quietBound_eq]
          rfl
        refine K.answerOk _ (K.generator _ g _ (K.quietBound g h) ?_)
        rw [hquiet]
        refine .disabled ?_
        rintro ⟨n, hg, hrun⟩
        rw [State.quietBound_eq] at hg hrun
        refine hfree (List.any_eq_true.2 ⟨n, (s.mem_boundStreams g n).2 hg, ?_⟩)
        have hrun : (s.stream n).isRunning = true := hrun
        simp [Stream.holdsGenerator, hrun]

/-! ### Losses and ticks -/

theorem loseStreams (K : State.KeptByOps P) {s : State} (g : GenNo) (p : Position) (h : P s) : P (s.loseStreams g p) := by
  unfold State.loseStreams
  refine State.foldl_kept _ _ (fun s n _ h => ?_) (K.takeOrder h)
  dsimp only
  split
  · exact K.examineCommand (K.fault trivial _ _ h)
  · exact h

theorem takeStreamLoss (K : State.KeptByOps P) {s : State} (g : GenNo) (h : P s) : P (s.takeStreamLoss g) := by
  unfold State.takeStreamLoss
  split
  · exact h
  · exact K.loseStreams g _ (K.frame s _ h ⟨⟨rfl, rfl, rfl, rfl, rfl, List.suffix_rfl⟩, rfl, rfl, rfl, rfl⟩)

theorem takeScheduleLoss (K : State.KeptByOps P) {s : State} (g : GenNo) (h : P s) : P (s.takeScheduleLoss g) := by
  unfold State.takeScheduleLoss
  split
  · exact h
  · exact K.examineCommand (K.scheduleOps.loseEntries g (K.schedule s _ h (.takesLoss _)))

theorem takeLosses (K : State.KeptByOps P) {s : State} (g : GenNo) (h : P s) : P (s.takeLosses g) :=
  State.foldl_kept _ _ (fun _ _ _ h => K.takeScheduleLoss g h)
    (State.foldl_kept _ _ (fun _ _ _ h => K.takeStreamLoss g h) h)

theorem offerLostFuel (K : State.KeptByOps P) (k : Nat) {s : State} (h : P s) : P (offerLostFuel k s) := by
  induction k generalizing s with
  | zero => exact h
  | succ k ih =>
    unfold Machine.offerLostFuel
    split
    · exact h
    · split
      · rename_i hroom
        have hfree := State.placeFree_of_roomFor hroom
        exact ih (K.accept _ _
          (K.frame s _ h ⟨⟨rfl, rfl, rfl, rfl, rfl, List.suffix_rfl⟩, rfl, rfl, rfl, rfl⟩) hfree)
      · exact h

theorem offerLost (K : State.KeptByOps P) {s : State} (h : P s) : P s.offerLost := K.offerLostFuel 4 h

theorem offerTrigger (K : State.KeptByOps P) {s : State} (l : LineNo) (edge : Edge) (h : P s) :
    P (s.offerTrigger l edge) := by
  unfold State.offerTrigger
  dsimp only
  split
  · rename_i hfree
    exact K.frame _ _ (K.accept s _ h hfree) ⟨⟨rfl, rfl, rfl, rfl, rfl, List.suffix_rfl⟩, rfl, rfl, rfl, rfl⟩
  · exact K.frame _ _ h ⟨⟨rfl, rfl, rfl, rfl, rfl, List.suffix_rfl⟩, rfl, rfl, rfl, rfl⟩

theorem serve (K : State.KeptByOps P) {s : State} (p : Producer) (hfree : s.placeFree = true) (h : P s) : P (s.serve p) := by
  unfold State.serve
  refine K.frame (match p.val with | 0 => _ | 1 => _ | 2 => _ | k + 3 => _) _ ?_
    ⟨⟨rfl, rfl, rfl, rfl, rfl, List.suffix_rfl⟩, rfl, rfl, rfl, rfl⟩
  split
  · split
    · exact K.cmdDonePlaced _ (fun _ _ => trivial) (K.accept s _ h hfree)
    · exact h
  · split
    · exact K.examineCommand (K.scheduleOps.offerSchedule (K.placeClosing _ _ h hfree))
    · exact h
  · split
    · exact K.offerLost (K.accept _ _
        (K.frame s _ h ⟨⟨rfl, rfl, rfl, rfl, rfl, List.suffix_rfl⟩, rfl, rfl, rfl, rfl⟩) hfree)
    · exact h
  · exact K.settleStream trivial (K.placePending trivial h hfree)

theorem grantPlacesFuel (K : State.KeptByOps P) (k : Nat) {s : State} (h : P s) : P (grantPlacesFuel k s) := by
  induction k generalizing s with
  | zero => exact h
  | succ k ih =>
    unfold Machine.grantPlacesFuel
    split
    · rename_i hfree
      split
      · exact h
      · exact ih (K.serve _ hfree h)
    · exact h

end State.KeptByOps

namespace State.KeptByTicks

variable {P : State → Prop}

theorem tick (K : State.KeptByTicks P) (n : StreamNo) : State.KeptByTick n P where
  accept := K.accept
  context := fun s m d h _ => K.context s m d h trivial
  close := fun s m h _ => K.close s m h trivial
  port := fun s m p h _ => K.port s m p h trivial
  discard := fun s m h _ => K.discard s m h trivial
  command := K.command
  schedule := K.schedule
  ticks := fun s d h => K.ticks s n d h

/-- The tick of a generator up to the grants that close it. -/
theorem tickAll (K : State.KeptByTicks P) {s : State} (g : GenNo) (lanes : List (List Bool)) (p : Position) (h : P s) :
    P ((s.takeOrder.1.filter (fun n => (s.takeOrder.2.stream n).generator == g)).foldl
      (fun s n => s.tickStream (lanes.getD n.val []) p n) s.takeOrder.2) :=
  State.foldl_kept _ _ (fun _ n _ h => (K.tick n).tickStream _ _ h) (K.takeOrder h)

end State.KeptByTicks

end Sys2Proof.Machine
end

section
/-! What a step can do, said once: `exec` has one of the effects of `RowEffect`, and what each of them keeps is kept by
every step. -/

namespace Sys2Proof.Machine

/-! ### Completions -/

@[simp] theorem State.finish_lead (s : State) : s.finish.transfers.lead = s.transfers.lead := by
  have h := congrArg (fun u : State => u.transfers.lead) s.finish_apartFromGrants
  exact h

@[simp] theorem State.finish_claimChoices (s : State) : s.finish.claimChoices = s.claimChoices := by
  have h := congrArg State.claimChoices s.finish_apartFromGrants
  exact h

/-- The ways a completion goes (R178, R181, R183): it changes nothing, it is discarded, it is taken ahead of the quiesce
claim, or it arrives. -/
theorem State.complete_cases {P : State → Prop} (s : State) (e : TransferId) (isFor : Transfer → Bool)
    (early handed : Transfer → State → State) (unchanged : P s)
    (discarded : ∀ t, s.pin = false → s.transfer e = some t → isFor t = true → s.transfers.mode ≠ .issue →
      P (s.putTransfer e none).examineQuiesce)
    (ahead : ∀ t, s.pin = false → s.transfer e = some t → isFor t = true → s.transfers.mode = .issue →
      s.engine.state = .quiescing → P (early t (s.putTransfer e none)).countEarly.takeQuiesceClaim)
    (arrives : ∀ t, s.arrives e t = true → s.transfer e = some t → isFor t = true →
      P (handed t (s.putTransfer e none)).finish) :
    P (s.complete e isFor early handed) := by
  unfold State.complete
  split
  · exact unchanged
  · rename_i hp
    split
    · exact unchanged
    · rename_i t ht
      split
      · exact unchanged
      · rename_i hf
        have hp : s.pin = false := by simpa using hp
        have hf : isFor t = true := by simpa using hf
        dsimp only
        split
        · rename_i hm
          exact discarded t hp ht hf (by simpa using hm)
        · rename_i hm
          have hm : s.transfers.mode = .issue := by simpa using hm
          split
          · rename_i hq
            exact ahead t hp ht hf hm (by simpa using hq)
          · rename_i hq
            exact arrives t (by simp_all [State.arrives]) ht hf

/-- What a completion of transfer `t` makes of its stream's context (R31, R55, R56, R62). -/
inductive Stream.Completes (t : Transfer) (c : Stream) : Stream → Prop
  | read (data : List Byte) (h : t.isData false = true) : Completes t c (c.completeRead t data)
  | failedRead (h : t.isData false = true) : Completes t c (c.failRead t)
  | write (ok : Bool) (h : t.isData true = true) : Completes t c (c.finishWrite t ok)
  | arrives (r : StreamRecord) (h : t.isRecordRead = true) : Completes t c (c.recordArrives r)
  | nothing : Completes t c c

/-! ### The rows -/

/-- What the execution of a command makes of the state in which it is in progress. -/
inductive State.Executes (s : State) : State → Prop
  | answers (result : List Byte) : Executes s (s.answerOk result)
  | refuses (status : Status) : Executes s (s.refuse status)
  | setsGenerator (p : GeneratorParams) : Executes s (s.setGenerator p)
  | enablesGenerator (g : BitVec 8) : Executes s (s.enableGenerator g)
  | disablesGenerator (g : BitVec 8) : Executes s (s.disableGenerator g)
  | opens (p : OpenParams) : Executes s (s.openStream p)
  | closes (n : BitVec 8) : Executes s (s.closeStream n)
  | starts (p : ScheduleParams) : Executes s (s.start p)
  | stops (p : ScheduleParams) : Executes s (s.stop p)
  | cancels (target : EntryId) : Executes s (s.cancel target)
  | setsTrigger (l selection report : BitVec 8) : Executes s (s.setTrigger l selection report)

/-- The tick of a generator whose losses are taken, up to the grants that close it. -/
def State.tickGenerator (s : State) (g : GenNo) (lanes : List (List Bool)) : State :=
  let x := (s.generator g).tick
  let s := s.putGenerator g x
  let s := { s with schedule := { s.schedule with entries := fireEntries g x.position [] s.schedule.entries } }
  (s.takeOrder.1.filter (fun n => (s.takeOrder.2.stream n).generator == g)).foldl
    (fun s n => s.tickStream (lanes.getD n.val []) x.position n) s.takeOrder.2

/-- The loss of a generator's reference, up to the report of it. -/
def State.loseReference (s : State) (g : GenNo) : State :=
  let claim : LossClaim := ⟨g, (s.generator g).position⟩
  let s := (s.quietBound g).putGenerator g { s.generator g with state := .lost, monitor := none }
  { s with
    streamLosses := s.streamLosses ++ [claim]
    schedule := { s.schedule with losses := s.schedule.losses ++ [claim] }
    timebase := { s.timebase with lostReports := s.timebase.lostReports ++ [claim] } }

/-- What an event in ACTIVE other than a tick makes of the state, up to the grants that close the step. -/
inductive State.Acts (s : State) : State → Prop
  | notifiesCommand (index : Nat) : Acts s { s with command := { s.command with producer := index } }
  | notifiesStream (n : StreamNo) (index : Nat) : Acts s (s.modifyStream n (fun c => { c with producer := index }))
  | releases (index posted : Nat) :
      Acts s { s with events := { s.events with releaseIndex := index, posted := posted, pending := false } }
  | losesReference (g : GenNo) : Acts s (s.loseReference g).offerLost
  | losesStreams (g : GenNo) : Acts s (s.takeStreamLoss g)
  | losesEntries (g : GenNo) : Acts s (s.takeScheduleLoss g)
  | removes (c : RemovalClaim) :
      Acts s (({ s with schedule := { s.schedule with removals := s.schedule.removals.erase c } }).removeFromEntry
        c.entry c.stream c.reason).examineCommand
  | makesDue (l : LineNo) : Acts s (s.makeDue l)
  | triggers (l : LineNo) (edge : Edge) : Acts s ((s.makeDue l).offerTrigger l edge)

/-- What one row makes of a state. -/
inductive RowAct (s : State) : State → Prop
  /-- a command record read completes OK and its command executes -/
  | command (e : TransferId) (record : Instr) (seq : BitVec 16) (execute : State → State)
      (h : ∀ u : State, u.Executes (execute u)) : RowAct s (s.takeCommand e record seq execute)
  /-- an event write completes OK -/
  | posts (e : TransferId) :
      RowAct s (s.completeOk e (Transfer.isOf .eventWrite) (fun t s =>
        grantPlacesFuel Config.holdingPlaces { s with events := s.events.post t.entryCount }))
  /-- a transfer of a stream completes OK -/
  | completes (e : TransferId) (isFor : Transfer → Bool) (effect : Transfer → Stream → Stream)
      (hfor : ∀ t, isFor t = true → t.requester.stream?.isSome = true)
      (heffect : ∀ (t : Transfer) (c : Stream), isFor t = true → c.Completes t (effect t c)) :
      RowAct s (s.completeStream e isFor effect)
  /-- a transfer of a stream completes with ERROR -/
  | fails (e : TransferId) (isFor : Transfer → Bool) (cause : FaultCause) (effect : Transfer → Stream → Stream)
      (hfor : ∀ t, isFor t = true → t.requester.stream?.isSome = true)
      (heffect : ∀ (t : Transfer) (c : Stream), isFor t = true → c.Completes t (effect t c)) :
      RowAct s (s.failStream e isFor cause effect)
  /-- a completion with ERROR is fatal -/
  | fatal (e : TransferId) (r : Requester) (cause : HaltCause) (h : cause ≠ .noCause) : RowAct s (s.completeFatal e r cause)
  /-- the Root Block read completes OK -/
  | root (e : TransferId) (b : RootBlock) :
      RowAct s (s.completeOk e (Transfer.isOf .rootBlock) (fun _ u => u.loadRootBlock b))
  /-- an event of ACTIVE, closed by the arbiter -/
  | event (t : State) (ha : s.isActive = true) (h : s.Acts t) : RowAct s t.finish
  /-- a tick of ACTIVE, closed by the arbiter -/
  | tick (g : GenNo) (lanes : List (List Bool)) (ha : s.isActive = true) (h : (s.generator g).completesTick = true) :
      RowAct s ((s.takeLosses g).tickGenerator g lanes).finish
  /-- a reference edge that completes no tick is counted -/
  | edge (g : GenNo) (h : (s.generator g).edges + 1 < (s.generator g).divider) (m : Option Nat) :
      RowAct s (s.putGenerator g { s.generator g with edges := (s.generator g).edges + 1, monitor := m })
  /-- a flag or the moderation changes -/
  | still (t : State) (h : State.SameCore s t) (hevents : t.events.holding = s.events.holding)
      (htimebase : t.timebase = s.timebase) : RowAct s t
  | control (w : BitVec 32) (hp : s.pin = false) : RowAct s (s.writeDeviceControl w)
  | rootPointer (p : Addr) (h : s.engine.state = .off) :
      RowAct s { s with engine := { s.engine with rootPointer := p } }
  | pinDown : RowAct s { s.fullReset with pin := true }
  | pinUp : RowAct s { s with pin := false }

theorem State.SameCore.refl (s : State) : State.SameCore s s :=
  ⟨⟨rfl, rfl, rfl, rfl, rfl, List.suffix_rfl⟩, rfl, rfl, rfl, rfl⟩

theorem RowAct.unchanged (s : State) : RowAct s s := .still s (.refl s) rfl rfl

theorem Transfer.isData_stream {write : Bool} {t : Transfer} (h : t.isData write = true) :
    t.requester.stream?.isSome = true := by
  unfold Transfer.isData at h
  split at h
  · rename_i hr
    rw [hr]
    rfl
  · cases h

theorem Transfer.isRecordRead_stream {t : Transfer} (h : t.isRecordRead = true) :
    t.requester.stream?.isSome = true := by
  unfold Transfer.isRecordRead at h
  split at h
  · rename_i hr
    rw [hr]
    rfl
  · cases h

theorem writeRingNotify_act (s : State) (w : BitVec 32) (hp : s.pin = false) : RowAct s (s.writeRingNotify w) := by
  have refused : RowAct s s.refuseNotify :=
    .still _ ⟨⟨rfl, rfl, rfl, rfl, rfl, List.suffix_rfl⟩, rfl, rfl, rfl, rfl⟩ rfl rfl
  unfold State.writeRingNotify
  split
  · exact refused
  · rename_i hactive
    have hactive : s.isActive = true := by
      have : s.engine.state = .active := by simpa using hactive
      simp [State.isActive, hp, this]
    split
    · unfold State.notifyCommand
      split
      · exact .event _ hactive (.notifiesCommand _)
      · exact refused
    · split
      · unfold State.notifyStream
        split
        · exact .event _ hactive (.notifiesStream _ _)
        · exact refused
      · split
        · unfold State.releaseEvents
          split
          · split
            · exact .event _ hactive (.releases _ _)
            · exact refused
          · exact refused
        · exact refused

theorem writeDeviceStatus_act (s : State) (w : BitVec 32) : RowAct s (s.writeDeviceStatus w) := by
  rw [State.writeDeviceStatus_eq]
  exact .still _ ⟨⟨rfl, rfl, rfl, rfl, rfl, List.suffix_rfl⟩, rfl, rfl, rfl, rfl⟩ rfl rfl

theorem writeRootPointer_act (s : State) (high : Bool) (w : BitVec 32) : RowAct s (s.writeRootPointer high w) := by
  unfold State.writeRootPointer
  split
  · rename_i hoff
    exact .rootPointer _ (by simpa using hoff)
  · exact .unchanged s

theorem writeWindow_act (s : State) (offset width : Nat) (value : BitVec 64) :
    RowAct s (s.writeWindow offset width value) := by
  unfold State.writeWindow
  dsimp only
  split
  · exact .unchanged s
  · rename_i hp
    have hp : s.pin = false := by
      cases hs : s.pin <;> simp_all
    split
    · exact .control _ hp
    · exact writeDeviceStatus_act s _
    · exact writeRootPointer_act s _ _
    · exact writeRootPointer_act s _ _
    · exact writeRingNotify_act s _ hp
    · exact .unchanged s

theorem unlessPin_act (s : State) (f : State → State) (h : s.pin = false → RowAct s (f s)) :
    RowAct s (s.unlessPin f) := by
  cases hp : s.pin with
  | true =>
    rw [State.unlessPin_held f hp]
    exact .unchanged s
  | false =>
    rw [State.unlessPin_released f hp]
    exact h hp

/-- Every row is one of these. -/
theorem exec_act (i : Instr) (s t : State) (h : exec i s = .next t) : RowAct s t := by
  cases i with
  | nop e seq => cases h; exact .command e _ _ _ fun u => .answers _
  | unknownCommandKind e seq kind => cases h; exact .command e _ _ _ fun u => .refuses _
  | setGenerator e seq p => cases h; exact .command e _ _ _ fun u => .setsGenerator p
  | enableGenerator e seq g => cases h; exact .command e _ _ _ fun u => .enablesGenerator g
  | disableGenerator e seq g => cases h; exact .command e _ _ _ fun u => .disablesGenerator g
  | openStream e seq p => cases h; exact .command e _ _ _ fun u => .opens p
  | closeStream e seq n => cases h; exact .command e _ _ _ fun u => .closes n
  | startNext e seq p => cases h; exact .command e _ _ _ fun u => .starts p
  | startAt e seq p => cases h; exact .command e _ _ _ fun u => .starts p
  | startTrigger e seq p => cases h; exact .command e _ _ _ fun u => .starts p
  | stopNow e seq p => cases h; exact .command e _ _ _ fun u => .stops p
  | stopAt e seq p => cases h; exact .command e _ _ _ fun u => .stops p
  | stopTrigger e seq p => cases h; exact .command e _ _ _ fun u => .stops p
  | stopDrain e seq p => cases h; exact .command e _ _ _ fun u => .stops p
  | cancel e seq target => cases h; exact .command e _ _ _ fun u => .cancels target
  | setTrigger e seq l sel rep => cases h; exact .command e _ _ _ fun u => .setsTrigger l sel rep
  | query e seq k n page =>
    cases h
    refine .command e _ _ _ fun u => ?_
    split
    · exact .answers _
    · exact .refuses _
  | controlRingAccess e => cases h; exact .fatal e _ _ nofun
  | rootAccess e => cases h; exact .fatal e _ _ nofun
  | eventRingAccess e => cases h; exact .fatal e _ _ nofun
  | rootBlockLoad e b => cases h; exact .root e b
  | eventWriteComplete e => cases h; exact .posts e
  | controlRingNotify w => cases h; exact unlessPin_act s _ (writeRingNotify_act s w)
  | streamRingNotify w => cases h; exact unlessPin_act s _ (writeRingNotify_act s w)
  | eventRingRelease w => cases h; exact unlessPin_act s _ (writeRingNotify_act s w)
  | enable w => cases h; exact unlessPin_act s _ (.control w)
  | engineDisable w => cases h; exact unlessPin_act s _ (.control w)
  | reset w => cases h; exact unlessPin_act s _ (.control w)
  | interruptEnable w => cases h; exact unlessPin_act s _ (.control w)
  | notifyErrorClear w => cases h; exact unlessPin_act s _ fun _ => writeDeviceStatus_act s w
  | rootPointerWrite high w => cases h; exact unlessPin_act s _ fun _ => writeRootPointer_act s high w
  | registerWriteDiscarded offset width value => cases h; exact writeWindow_act s offset width value
  | resetPin => cases h; exact .pinDown
  | resetPinRelease => cases h; exact .pinUp
  | dataReadComplete e data =>
    cases h
    exact .completes e _ _ (fun _ => Transfer.isData_stream) fun t c ht => .read data ht
  | dataReadError e =>
    cases h
    exact .fails e _ _ _ (fun _ => Transfer.isData_stream) fun t c ht => .failedRead ht
  | dataWriteComplete e =>
    cases h
    exact .completes e _ _ (fun _ => Transfer.isData_stream) fun t c ht => .write true ht
  | dataWriteError e =>
    cases h
    exact .fails e _ _ _ (fun _ => Transfer.isData_stream) fun t c ht => .write false ht
  | recordReadComplete e r =>
    cases h
    exact .completes e _ _ (fun _ => Transfer.isRecordRead_stream) fun t c ht => .arrives r ht
  | recordReadError e =>
    cases h
    exact .fails e _ _ _ (fun _ => Transfer.isRecordRead_stream) fun t c ht => .nothing
  | tick g lanes =>
    cases h
    split
    · rename_i hx
      obtain ⟨hactive, htick⟩ := Bool.and_eq_true_iff.1 hx
      exact .tick g lanes hactive htick
    · exact .unchanged s
  | referenceEdge g =>
    cases h
    dsimp only
    split
    · rename_i hx
      simp only [Bool.and_eq_true, decide_eq_true_eq] at hx
      exact .edge g hx.2 _
    · exact .unchanged s
  | referenceMonitorExpiry g =>
    cases h
    dsimp only
    split
    · rename_i hx
      simp only [Bool.and_eq_true] at hx
      exact .event _ hx.1.1 (.losesReference g)
    · exact .unchanged s
  | streamReferenceLoss g =>
    cases h
    split
    · rename_i ha
      exact .event _ ha (.losesStreams g)
    · exact .unchanged s
  | scheduleReferenceLoss g =>
    cases h
    split
    · rename_i ha
      exact .event _ ha (.losesEntries g)
    · exact .unchanged s
  | removalClaim n =>
    cases h
    split
    · exact .unchanged s
    · rename_i c hc
      split
      · rename_i ha
        have hn : c.stream = n := by simpa using List.find?_some hc
        exact .event _ ha (hn ▸ .removes c)
      · exact .unchanged s
  | triggerEdge l edge =>
    cases h
    split
    · rename_i ha
      refine .event _ (Bool.and_eq_true_iff.1 ha).1 ?_
      split
      · exact .triggers l edge
      · exact .makesDue l
    · exact .unchanged s
  | holdoffTimerExpiry =>
    cases h
    split
    · exact .still _ ⟨⟨rfl, rfl, rfl, rfl, rfl, List.suffix_rfl⟩, rfl, rfl, rfl, rfl⟩ rfl rfl
    · exact .unchanged s

/-- A step runs a row with the queue's rest, or changes nothing. -/
theorem step_act (s t : State) (h : step s = .next t) :
    t = s ∨ ∃ u : State, u = { s with pending := u.pending } ∧ RowAct u t := by
  unfold step at h
  split at h
  · cases h
    exact .inl rfl
  · rename_i c rest hp
    exact .inr ⟨{ s with pending := rest }, rfl, exec_act _ _ _ h⟩

/-! ### The effects of a row -/

/-- What the shared operations can make of `s`. -/
def State.OpsTo (s t : State) : Prop := ∀ P, State.KeptByOps P → P s → P t

/-- What one row makes of a state. -/
inductive RowEffect (s : State) : State → Prop
  /-- a command, or an event write, completes OK -/
  | completion (e : TransferId) (isFor : Transfer → Bool) (handed : Transfer → State → State)
      (h : ∀ (t : Transfer) (u : State), u.OpsTo (handed t u)) : RowEffect s (s.completeOk e isFor handed)
  /-- a transfer of a stream completes -/
  | stream (e : TransferId) (isFor : Transfer → Bool) (early handed : Transfer → State → State)
      (effect : Transfer → Stream → Stream) (hfor : ∀ t, isFor t = true → t.requester.stream?.isSome = true)
      (heffect : ∀ (t : Transfer) (c : Stream), isFor t = true → c.Completes t (effect t c))
      (hearly : ∀ (t : Transfer) (u : State) (n : StreamNo), t.requester.stream? = some n → u.OpsTo (early t u)
        ∨ (u.modifyStream n (effect t)).OpsTo (early t u))
      (hhanded : ∀ (t : Transfer) (u : State) (n : StreamNo), t.requester.stream? = some n → (u.modifyStream n (effect t)).OpsTo (handed t u)) :
      RowEffect s (s.complete e isFor early handed)
  /-- a completion with ERROR is fatal -/
  | fatal (e : TransferId) (r : Requester) (cause : HaltCause) (h : cause ≠ .noCause) : RowEffect s (s.completeFatal e r cause)
  /-- the Root Block read completes OK -/
  | root (e : TransferId) (b : RootBlock) :
      RowEffect s (s.completeOk e (Transfer.isOf .rootBlock) (fun _ u => u.loadRootBlock b))
  /-- an event of ACTIVE, closed by the arbiter -/
  | event (t : State) (ha : s.isActive = true) (h : s.OpsTo t) : RowEffect s t.finish
  /-- a tick of ACTIVE, closed by the arbiter -/
  | tick (g : GenNo) (lanes : List (List Bool)) (ha : s.isActive = true) (h : (s.generator g).completesTick = true) :
      RowEffect s ((s.takeLosses g).tickGenerator g lanes).finish
  /-- nothing is granted -/
  | still (t : State) (h : s.OpsTo t) : RowEffect s t
  | control (w : BitVec 32) (hp : s.pin = false) : RowEffect s (s.writeDeviceControl w)
  | rootPointer (p : Addr) (h : s.engine.state = .off) :
      RowEffect s { s with engine := { s.engine with rootPointer := p } }
  | pinDown : RowEffect s { s.fullReset with pin := true }
  | pinUp : RowEffect s { s with pin := false }

theorem State.OpsTo.refl (s : State) : s.OpsTo s := fun _ _ h => h

theorem State.OpsTo.trans {s t u : State} (h : s.OpsTo t) (k : t.OpsTo u) : s.OpsTo u := fun P K hs => k P K (h P K hs)

/-- A change that `State.SameCore` allows is one of the shared operations. -/
theorem State.SameCore.opsTo {s t : State} (h : State.SameCore s t) : s.OpsTo t := fun _ K hs => K.frame s t hs h

/-- A command row is a completion whose command executes with itself in progress. -/
theorem takeCommand_effect (s : State) (e : TransferId) (record : Instr) (seq : BitVec 16) (execute : State → State)
    (h : ∀ P, State.KeptByOps P → ∀ u : State, u.command.inProgress.isSome = true → P u → P (execute u)) :
    RowEffect s (s.takeCommand e record seq execute) := by
  refine .completion e _ _ fun t u P K hu => h P K _ rfl ?_
  have hmoved := K.command u _ hu (.indices u.command.base u.command.size u.command.producer
    ((u.command.consumer + 1) % u.command.size))
  have htaken (p : CommandInProgress) := K.command _ _ hmoved (.takes p)
  exact htaken _

theorem State.onStream_of_stream {t : Transfer} {n : StreamNo} (h : t.requester.stream? = some n)
    (f : StreamNo → State → State) (u : State) : u.onStream t f = f n u := by
  unfold State.onStream
  rw [h]

theorem accessError_opsTo (s : State) (n : StreamNo) (cause : FaultCause) : s.OpsTo (s.accessError n cause) := by
  intro P K h
  unfold State.accessError
  dsimp only
  split
  · exact K.enterFaulted trivial _ _ h
  · exact h

theorem recordFault_opsTo (s : State) (t : Transfer) : s.OpsTo (s.recordFault t) :=
  State.SameCore.opsTo ⟨⟨rfl, rfl, rfl, rfl, rfl, List.suffix_rfl⟩, rfl, rfl, rfl, rfl⟩

theorem recordFault_modifyStream (s : State) (t : Transfer) (n : StreamNo) (f : Stream → Stream) :
    (s.recordFault t).modifyStream n f = (s.modifyStream n f).recordFault t := rfl

/-- What the failure of a stream's transfer does after it is freed (R19, R180). -/
theorem fails_opsTo (s : State) (t : Transfer) (n : StreamNo) (effect : Stream → Stream) (cause : FaultCause) :
    (s.modifyStream n effect).OpsTo (((s.recordFault t).modifyStream n effect).accessError n cause) := by
  rw [recordFault_modifyStream]
  exact (recordFault_opsTo _ _).trans (accessError_opsTo _ _ _)

theorem settleStream_opsTo (s : State) (n : StreamNo) : s.OpsTo (s.settleStream n) :=
  fun _ K h => K.settleStream trivial h

theorem completeStream_effect (s : State) (e : TransferId) (isFor : Transfer → Bool) (effect : Transfer → Stream → Stream)
    (hfor : ∀ t, isFor t = true → t.requester.stream?.isSome = true)
    (heffect : ∀ (t : Transfer) (c : Stream), isFor t = true → c.Completes t (effect t c)) :
    RowEffect s (s.completeStream e isFor effect) := by
  unfold State.completeStream State.completeOk
  refine RowEffect.stream e isFor _ _ effect hfor heffect ?_ ?_
  · intro t u n _
    exact .inl (State.OpsTo.refl u)
  · intro t u n hn
    rw [State.onStream_of_stream hn]
    exact settleStream_opsTo _ _

theorem failStream_effect (s : State) (e : TransferId) (isFor : Transfer → Bool) (cause : FaultCause)
    (effect : Transfer → Stream → Stream) (hfor : ∀ t, isFor t = true → t.requester.stream?.isSome = true)
    (heffect : ∀ (t : Transfer) (c : Stream), isFor t = true → c.Completes t (effect t c)) :
    RowEffect s (s.failStream e isFor cause effect) := by
  unfold State.failStream
  refine RowEffect.stream e isFor _ _ effect hfor heffect ?_ ?_
  · intro t u n hn
    rw [State.onStream_of_stream hn]
    exact .inr (fails_opsTo u t n _ _)
  · intro t u n hn
    rw [State.onStream_of_stream hn]
    exact (fails_opsTo u t n _ _).trans (settleStream_opsTo _ _)

theorem EventUnit.moderate_holding (e : EventUnit) (k : Nat) : (e.moderate k).holding = e.holding := by
  unfold EventUnit.moderate
  split
  · rfl
  · split <;> rfl

theorem EventUnit.post_holding (e : EventUnit) (k : Nat) : (e.post k).holding = e.holding.drop k :=
  EventUnit.moderate_holding _ _

/-- What keeps `P` through the shared operations, the execution of a command keeps. -/
theorem State.KeptByOps.executes {P : State → Prop} (K : State.KeptByOps P) {s t : State} (h : s.Executes t)
    (hp : s.command.inProgress.isSome = true) (hs : P s) : P t := by
  cases h with
  | answers result => exact K.answerOk _ hs
  | refuses status => exact K.refuse _ hs
  | setsGenerator p => exact K.setGenerator p hs
  | enablesGenerator g => exact K.enableGenerator g hs
  | disablesGenerator g => exact K.disableGenerator g hs
  | opens p => exact K.openStream p hs
  | closes n => exact K.closeStream n hp (fun _ _ => trivial) hs
  | starts p => exact K.start p hs
  | stops p => exact K.stop p hp hs
  | cancels id => exact K.cancel id hp (fun _ _ _ _ _ => trivial) hs
  | setsTrigger l sel rep => exact K.setTrigger l sel rep hs

theorem State.KeptByTicks.tickGenerator {P : State → Prop} (K : State.KeptByTicks P) {s : State} (g : GenNo)
    (lanes : List (List Bool)) (h : P s) : P (s.tickGenerator g lanes) :=
  K.tickAll g lanes _ (K.schedule _ _ (K.generatorTicks s g h) (.fires g _))

theorem State.KeptByOps.loseReference {P : State → Prop} (K : State.KeptByOps P) {s : State} (g : GenNo) (h : P s) :
    P (s.loseReference g) := by
  have hquiet : (s.quietBound g).generator g = s.generator g := by
    rw [State.quietBound_eq]
    rfl
  refine K.frame _ _ (K.schedule _ _ (K.generator _ g _ (K.quietBound g h)
    (?_ : Generator.Moves _ _ { s.generator g with state := .lost, monitor := none }))
    (.loses ⟨g, (s.generator g).position⟩)) ⟨⟨rfl, rfl, rfl, rfl, rfl, List.suffix_rfl⟩, rfl, rfl, rfl, rfl⟩
  rw [hquiet]
  exact .lost

/-- What keeps `P` through the shared operations, an event in ACTIVE keeps. -/
theorem State.KeptByOps.acts {P : State → Prop} (K : State.KeptByOps P) {s t : State} (h : s.Acts t) (hs : P s) : P t := by
  cases h with
  | notifiesCommand index =>
    exact K.command s _ hs (.indices s.command.base s.command.size index s.command.consumer)
  | notifiesStream n index => exact K.links trivial _ hs (Stream.carries_links rfl id id)
  | releases index posted =>
    exact K.frame s _ hs ⟨⟨rfl, rfl, rfl, rfl, rfl, List.suffix_rfl⟩, rfl, rfl, rfl, rfl⟩
  | losesReference g => exact K.offerLost (K.loseReference g hs)
  | losesStreams g => exact K.takeStreamLoss g hs
  | losesEntries g => exact K.takeScheduleLoss g hs
  | removes c => exact K.examineCommand (K.scheduleOps.removeFromEntry _ _ _ (K.schedule s _ hs (.takes c)))
  | makesDue l => exact K.dues s l hs
  | triggers l edge => exact K.offerTrigger l edge (K.dues s l hs)

/-- A row has one of the effects. -/
theorem RowAct.effect {s t : State} (h : RowAct s t) : RowEffect s t := by
  cases h with
  | command e record seq execute h =>
    exact takeCommand_effect s e record seq execute fun P K u hp hu => K.executes (h u) hp hu
  | posts e =>
    refine .completion e _ _ fun t u P K h => K.grantPlacesFuel _ (K.frame u _ h
      ⟨⟨rfl, rfl, rfl, rfl, rfl, ?_⟩, rfl, rfl, rfl, rfl⟩)
    rw [EventUnit.post_holding]
    exact List.drop_suffix _ _
  | completes e isFor effect hfor heffect => exact completeStream_effect s e isFor effect hfor heffect
  | fails e isFor cause effect hfor heffect => exact failStream_effect s e isFor cause effect hfor heffect
  | fatal e r cause h => exact .fatal e r cause h
  | root e b => exact .root e b
  | event t ha h => exact .event t ha fun P K hs => K.acts h hs
  | tick g lanes ha h => exact .tick g lanes ha h
  | edge g h m => exact .still _ fun P K hs => K.generator s g _ hs (.edge h m)
  | still t h _ _ => exact .still t h.opsTo
  | control w hp => exact .control w hp
  | rootPointer p h => exact .rootPointer p h
  | pinDown => exact .pinDown
  | pinUp => exact .pinUp

/-- A step runs a row with the queue's rest, or changes nothing. -/
theorem step_effect (s t : State) (h : step s = .next t) :
    t = s ∨ ∃ u : State, u = { s with pending := u.pending } ∧ RowEffect u t :=
  (step_act s t h).imp_right fun ⟨u, hu, hact⟩ => ⟨u, hu, hact.effect⟩

end Sys2Proof.Machine
end

section
/-! The Outstanding Transfer Table through the operations (R66, R172), and the agreement of engine, Transfer Unit and table
through every step (chapters 8 and 9). -/

namespace Sys2Proof.Machine

/-! ### The table -/

theorem State.ext_table {s t : State} (h : ∀ e, t.transfer e = s.transfer e)
    (body : t = { s with transfers := { s.transfers with table := t.transfers.table } }) : t = s := by
  have htable : t.transfers.table = s.transfers.table := by
    ext1 i hi
    exact h ⟨i, hi⟩
  rw [body, htable]

/-- Marking data reads for discard changes each transfer of the table at its place (R66). -/
theorem State.discardReads_eq (s : State) (n : StreamNo) :
    s.discardReads n = { s with transfers := { s.transfers with
      table := s.transfers.table.map (Option.map (Transfer.discarded n)) } } := by
  let f (s : State) (e : TransferId) : State := s.putTransfer e ((s.transfer e).map (Transfer.discarded n))
  have hbody (l : List TransferId) (s : State) :
      l.foldl f s = { s with transfers := { s.transfers with table := (l.foldl f s).transfers.table } } := by
    induction l generalizing s with
    | nil => rfl
    | cons e l ih =>
      rw [List.foldl_cons, ih]
      rfl
  have hitem (l : List TransferId) (s : State) (hl : l.Nodup) (e : TransferId) :
      (l.foldl f s).transfer e = if e ∈ l then (s.transfer e).map (Transfer.discarded n) else s.transfer e := by
    induction l generalizing s with
    | nil => simp
    | cons d l ih =>
      obtain ⟨hd, hl⟩ := List.nodup_cons.1 hl
      rw [List.foldl_cons, ih _ hl]
      rcases eq_or_ne d e with rfl | hne
      · simp [hd, f]
      · simp [f, hne.symm, State.transfer_putTransfer_of_ne _ _ hne]
  refine State.ext_table (fun e => ?_) (by rw [State.discardReads]; exact hbody _ s)
  have hmem : e ∈ Config.streams := by
    fin_cases e <;> decide
  show (Config.streams.foldl f s).transfer e = _
  rw [hitem _ s (by decide) e, if_pos hmem]
  simp [State.transfer]

@[simp] theorem State.discardReads_transfer (s : State) (n : StreamNo) (e : TransferId) :
    (s.discardReads n).transfer e = (s.transfer e).map (Transfer.discarded n) := by
  rw [State.discardReads_eq]
  simp [State.transfer]

theorem Transfer.discarded_requester (n : StreamNo) (t : Transfer) : (t.discarded n).requester = t.requester := by
  unfold Transfer.discarded
  split <;> rfl

theorem State.outstanding_eq_countP (s : State) (r : Requester) :
    s.outstanding r = s.transfers.table.toList.countP (fun t => t.any (fun t => t.requester == r)) := rfl

@[simp] theorem State.discardReads_outstanding (s : State) (n : StreamNo) (r : Requester) :
    (s.discardReads n).outstanding r = s.outstanding r := by
  rw [State.discardReads_eq, State.outstanding_eq_countP, State.outstanding_eq_countP, Vector.toList_map, List.countP_map]
  congr 1
  funext t
  cases t with
  | none => rfl
  | some t => exact congrArg (· == r) (Transfer.discarded_requester n t)

theorem State.tableEmpty_iff (s : State) : s.tableEmpty = true ↔ ∀ e, s.transfer e = none := by
  simp only [State.tableEmpty, List.all_eq_true, Option.isNone_iff_eq_none]
  constructor
  · intro h e
    exact h _ (by simp [State.transfer])
  · intro h o ho
    obtain ⟨i, hi, rfl⟩ := List.getElem_of_mem ho
    simp only [Vector.length_toList] at hi
    exact h ⟨i, hi⟩

theorem State.tableEmpty_of_transfer {s : State} {e : TransferId} {t : Transfer} (h : s.transfer e = some t) :
    s.tableEmpty = false := by
  rw [Bool.eq_false_iff]
  intro hempty
  rw [State.tableEmpty_iff] at hempty
  simp [hempty e] at h

@[simp] theorem State.discardReads_tableEmpty (s : State) (n : StreamNo) : (s.discardReads n).tableEmpty = s.tableEmpty := by
  rw [Bool.eq_iff_iff, State.tableEmpty_iff, State.tableEmpty_iff]
  simp

/-! ### The engine -/

/-- Engine Control, the pin and the mode of the Transfer Unit are as they were, and so is whether the table is empty. -/
structure State.SameEngine (s t : State) : Prop where
  engine : t.engine = s.engine
  pin : t.pin = s.pin
  mode : t.transfers.mode = s.transfers.mode
  lead : t.transfers.lead = s.transfers.lead
  empty : t.tableEmpty = s.tableEmpty

theorem State.sameEngine_kept (s : State) : State.KeptByTicks (State.SameEngine s) where
  accept := fun _ _ h _ => ⟨h.engine, h.pin, h.mode, h.lead, h.empty⟩
  context := fun _ _ _ h _ _ => ⟨h.engine, h.pin, h.mode, h.lead, h.empty⟩
  close := fun _ _ h _ _ => ⟨h.engine, h.pin, h.mode, h.lead, h.empty⟩
  port := fun _ _ _ h _ => ⟨h.engine, h.pin, h.mode, h.lead, h.empty⟩
  discard := fun t n h _ => by
    have hempty := (t.discardReads_tableEmpty n).trans h.empty
    rw [State.discardReads_eq] at hempty ⊢
    exact ⟨h.engine, h.pin, h.mode, h.lead, hempty⟩
  command := fun _ _ h _ => ⟨h.engine, h.pin, h.mode, h.lead, h.empty⟩
  schedule := fun _ _ h _ => ⟨h.engine, h.pin, h.mode, h.lead, h.empty⟩
  frame := fun t u h k => ⟨k.engine.trans h.engine, k.pin.trans h.pin, k.mode.trans h.mode, k.lead.trans h.lead, by
    rw [← h.empty, State.tableEmpty, State.tableEmpty, k.table]⟩
  ticks := fun _ _ _ h _ => ⟨h.engine, h.pin, h.mode, h.lead, h.empty⟩
  opens := fun _ _ _ _ h _ _ => ⟨h.engine, h.pin, h.mode, h.lead, h.empty⟩
  generator := fun _ _ _ h _ => ⟨h.engine, h.pin, h.mode, h.lead, h.empty⟩
  generatorTicks := fun _ _ h => ⟨h.engine, h.pin, h.mode, h.lead, h.empty⟩
  adds := fun _ _ h _ _ _ _ _ => ⟨h.engine, h.pin, h.mode, h.lead, h.empty⟩
  dues := fun _ _ h => ⟨h.engine, h.pin, h.mode, h.lead, h.empty⟩

theorem State.OpsTo.sameEngine {s t : State} (h : s.OpsTo t) : State.SameEngine s t :=
  h _ (State.sameEngine_kept s).toKeptByOps ⟨rfl, rfl, rfl, rfl, rfl⟩

theorem State.SameEngine.consistent {s t : State} (h : State.SameEngine s t) :
    t.engineConsistent = s.engineConsistent := by
  simp only [State.engineConsistent, h.engine, h.pin, h.mode, h.lead, h.empty]

/-- Away from OFF and QUIESCING the table does not matter. -/
theorem State.engineConsistent_of_busy {s t : State} (engine : t.engine = s.engine) (pin : t.pin = s.pin)
    (mode : t.transfers.mode = s.transfers.mode) (lead : t.transfers.lead = s.transfers.lead)
    (hoff : s.engine.state ≠ .off) (hq : s.engine.state ≠ .quiescing) (h : s.engineConsistent = true) :
    t.engineConsistent = true := by
  rw [← h]
  simp only [State.engineConsistent, engine, pin, mode, lead]
  cases hs : s.engine.state <;> simp_all

theorem State.finish_consistent {s : State} (hoff : s.engine.state ≠ .off) (hq : s.engine.state ≠ .quiescing)
    (h : s.engineConsistent = true) : s.finish.engineConsistent = true :=
  State.engineConsistent_of_busy s.finish_engine s.finish_pin s.finish_mode s.finish_lead hoff hq h

theorem State.enterHalted_consistent (s : State) {cause : HaltCause} (hp : s.pin = false) (hc : cause ≠ .noCause) :
    (s.enterHalted cause).engineConsistent = true := by
  simp [State.engineConsistent, State.enterHalted, State.settleTransfers, State.freeze, hp, hc]

theorem State.reset_tableEmpty : State.reset.tableEmpty = true :=
  State.reset.tableEmpty_iff.2 State.reset_transfer

theorem State.engineConsistent_of_reset {s : State} (engine : s.engine.state = .off ∧ s.engine.halt = false
    ∧ s.engine.cause = .noCause ∧ s.engine.root = none) (mode : s.transfers.mode = .parked)
    (lead : s.transfers.lead = 0) (table : s.transfers.table = State.reset.transfers.table) :
    s.engineConsistent = true := by
  have hempty : s.tableEmpty = true := by
    rw [State.tableEmpty, table]
    exact State.reset_tableEmpty
  obtain ⟨hs, hh, hc, hr⟩ := engine
  simp [State.engineConsistent, hs, hh, hc, hr, mode, lead, hempty]

theorem State.fullReset_consistent (s : State) : s.fullReset.engineConsistent = true :=
  State.engineConsistent_of_reset ⟨rfl, rfl, rfl, rfl⟩ rfl rfl rfl

theorem State.endQuiesce_consistent (s : State) : s.endQuiesce.engineConsistent = true :=
  State.engineConsistent_of_reset ⟨rfl, rfl, rfl, rfl⟩ rfl rfl rfl

/-- In SETTLE the end of quiesce leaves the engine consistent, with or without a transfer outstanding (R183). -/
theorem State.examineQuiesce_consistent {s : State} (hq : s.engine.state = .quiescing) (hp : s.pin = false)
    (hm : s.transfers.mode = .settle) (hl : s.transfers.lead = 0)
    (hh : s.engine.halt = (s.engine.cause != .noCause)) : s.examineQuiesce.engineConsistent = true := by
  unfold State.examineQuiesce
  split
  · exact s.endQuiesce_consistent
  · rename_i hempty
    have hempty : s.tableEmpty = false := by simpa [hq] using hempty
    simp [State.engineConsistent, hq, hp, hm, hl, hh, hempty]

theorem State.takeQuiesceClaim_consistent {s : State} (hq : s.engine.state = .quiescing) (hp : s.pin = false)
    (hh : s.engine.halt = (s.engine.cause != .noCause)) : s.takeQuiesceClaim.engineConsistent = true := by
  unfold State.takeQuiesceClaim
  split
  · rename_i hearly
    simp only [Bool.and_eq_true, beq_iff_eq, bne_iff_ne, Bool.not_eq_true'] at hearly
    obtain ⟨⟨hm, hl⟩, hempty⟩ := hearly
    simp [State.engineConsistent, hq, hp, hm, hl, hh, hempty]
  · exact State.examineQuiesce_consistent hq hp rfl rfl hh

theorem State.enterQuiescing_consistent {s : State} (hp : s.pin = false)
    (hh : s.engine.halt = (s.engine.cause != .noCause)) : s.enterQuiescing.engineConsistent = true := by
  unfold State.enterQuiescing
  refine State.takeQuiesceClaim_consistent ?_ ?_ ?_ <;> split
  · rfl
  · rfl
  · exact hp
  · exact hp
  · exact hh
  · exact hh

/-- HALT stands exactly with a cause in every engine state. -/
theorem State.halt_of_consistent {s : State} (h : s.engineConsistent = true) :
    s.engine.halt = (s.engine.cause != .noCause) := by
  unfold State.engineConsistent at h
  cases hs : s.engine.state <;> simp_all

theorem State.active_of_isActive {s : State} (h : s.isActive = true) : s.engine.state = .active := by
  simp only [State.isActive, Bool.and_eq_true, beq_iff_eq] at h
  exact h.2

/-- A pin that is asserted finds the engine OFF. -/
theorem State.pin_of_consistent {s : State} (h : s.engineConsistent = true) (hs : s.engine.state ≠ .off) :
    s.pin = false := by
  unfold State.engineConsistent at h
  cases hp : s.pin <;> simp_all

/-- Outside LOADING, ACTIVE and the early completions of a quiesce, a transfer that is outstanding settles. -/
theorem State.settles_of_consistent {s : State} {e : TransferId} {t : Transfer} (h : s.engineConsistent = true)
    (ht : s.transfer e = some t) (hm : s.transfers.mode ≠ .issue) :
    s.transfers.mode = .settle ∧ s.transfers.lead = 0 ∧ (s.engine.state = .halted ∨ s.engine.state = .quiescing) := by
  have hempty := State.tableEmpty_of_transfer ht
  unfold State.engineConsistent at h
  cases hs : s.engine.state <;> simp_all

theorem State.arrives_engine {s : State} {e : TransferId} {t : Transfer} (h : s.engineConsistent = true)
    (ha : s.arrives e t = true) : s.pin = false ∧ (s.engine.state = .loading ∨ s.engine.state = .active) := by
  unfold State.engineConsistent at h
  unfold State.arrives at ha
  cases hs : s.engine.state <;> simp_all

/-- A completion keeps the engine consistent when its two effects leave what the engine rests on. -/
theorem State.complete_consistent {s : State} (e : TransferId) (isFor : Transfer → Bool)
    (early handed : Transfer → State → State) (h : s.engineConsistent = true)
    (hearly : ∀ (t : Transfer) (u : State), isFor t = true → u.engine.state = .quiescing → (early t u).engine = u.engine ∧ (early t u).pin = u.pin)
    (hhanded : ∀ (t : Transfer) (u : State), isFor t = true → u.engine.state = .loading ∨ u.engine.state = .active →
      u.engineConsistent = true →
      (handed t u).engineConsistent = true ∧ (handed t u).engine.state ≠ .off ∧ (handed t u).engine.state ≠ .quiescing) :
    (s.complete e isFor early handed).engineConsistent = true := by
  have hhalt : (s.putTransfer e none).engine.halt = ((s.putTransfer e none).engine.cause != .noCause) :=
    State.halt_of_consistent (s := s) h
  refine State.complete_cases (P := fun t => t.engineConsistent = true) s e isFor early handed h ?_ ?_ ?_
  · intro t hp ht _ hm
    obtain ⟨hm, hl, hs⟩ := State.settles_of_consistent h ht hm
    rcases hs with hs | hs
    · have hstays : (s.putTransfer e none).examineQuiesce = s.putTransfer e none := by
        simp [State.examineQuiesce, hs]
      rw [hstays]
      exact State.engineConsistent_of_busy (s := s) rfl rfl rfl rfl (by simp [hs]) (by simp [hs]) h
    · exact State.examineQuiesce_consistent (s := s.putTransfer e none) hs hp hm hl hhalt
  · intro t hp ht hf hm hs
    obtain ⟨hengine, hpin⟩ := hearly t (s.putTransfer e none) hf hs
    refine State.takeQuiesceClaim_consistent (s := (early t (s.putTransfer e none)).countEarly) ?_ ?_ ?_
    · exact (congrArg EngineControl.state hengine).trans hs
    · exact hpin.trans hp
    · show (early t (s.putTransfer e none)).engine.halt = _
      rw [show (early t (s.putTransfer e none)).countEarly.engine = s.engine from hengine, hengine]
      exact hhalt
  · intro t ha ht hf
    obtain ⟨hp, hs⟩ := State.arrives_engine h ha
    have hbusy : s.engine.state ≠ .off ∧ s.engine.state ≠ .quiescing := by
      rcases hs with hs | hs <;> simp [hs]
    obtain ⟨hc, hoff, hq⟩ := hhanded t (s.putTransfer e none) hf hs
      (State.engineConsistent_of_busy (s := s) rfl rfl rfl rfl hbusy.1 hbusy.2 h)
    exact State.finish_consistent hoff hq hc

/-- An effect of the shared operations leaves the engine as `complete_consistent` asks. -/
theorem State.SameEngine.arrived {s t : State} (h : State.SameEngine s t)
    (hs : s.engine.state = .loading ∨ s.engine.state = .active) (hc : s.engineConsistent = true) :
    t.engineConsistent = true ∧ t.engine.state ≠ .off ∧ t.engine.state ≠ .quiescing := by
  rw [h.consistent, h.engine]
  rcases hs with hs | hs <;> simp [hs, hc]

theorem State.putStream_sameEngine (s : State) (n : StreamNo) (c : Stream) : State.SameEngine s (s.putStream n c) :=
  ⟨rfl, rfl, rfl, rfl, rfl⟩

theorem State.SameEngine.trans {s t u : State} (h : State.SameEngine s t) (k : State.SameEngine t u) :
    State.SameEngine s u :=
  ⟨k.engine.trans h.engine, k.pin.trans h.pin, k.mode.trans h.mode, k.lead.trans h.lead, k.empty.trans h.empty⟩

theorem State.loadRootBlock_engine {u : State} (b : RootBlock) (hs : u.engine.state = .loading ∨ u.engine.state = .active)
    (hc : u.engineConsistent = true) : (u.loadRootBlock b).engineConsistent = true
      ∧ (u.loadRootBlock b).engine.state ≠ .off ∧ (u.loadRootBlock b).engine.state ≠ .quiescing := by
  have hp := State.pin_of_consistent hc (by rcases hs with hs | hs <;> simp [hs])
  unfold State.loadRootBlock
  split
  · exact ⟨hc, by rcases hs with hs | hs <;> simp [hs], by rcases hs with hs | hs <;> simp [hs]⟩
  · rename_i hloading
    have hloading : u.engine.state = .loading := by simpa using hloading
    split
    · refine ⟨?_, nofun, nofun⟩
      unfold State.engineConsistent at hc ⊢
      simp_all [State.enterActive]
    · exact ⟨u.enterHalted_consistent hp nofun, nofun, nofun⟩

theorem State.fatalError_engine {u : State} (t : Transfer) {cause : HaltCause} (hcause : cause ≠ .noCause)
    (hs : u.engine.state = .loading ∨ u.engine.state = .active) (hp : u.pin = false) :
    (u.fatalError t cause).engineConsistent = true
      ∧ (u.fatalError t cause).engine.state ≠ .off ∧ (u.fatalError t cause).engine.state ≠ .quiescing := by
  have hhalts : u.fatalError t cause = (u.recordFault t).settleTransfers.enterHalted cause := by
    unfold State.fatalError State.fatalClaim
    rw [if_pos]
    rcases hs with hs | hs <;> simp [State.settleTransfers, State.recordFault, hs]
  rw [hhalts]
  exact ⟨State.enterHalted_consistent _ hp hcause, nofun, nofun⟩

theorem State.writeDeviceControl_consistent {s : State} (w : BitVec 32) (hp : s.pin = false)
    (h : s.engineConsistent = true) : (s.writeDeviceControl w).engineConsistent = true := by
  cases hw : wordReset w with
  | true =>
    rw [State.writeDeviceControl_reset hw]
    exact s.fullReset_consistent
  | false =>
    rw [State.writeDeviceControl_eq hw]
    dsimp only
    split_ifs with hon hoff
    · unfold State.enterLoading
      dsimp only
      split
      · exact State.enterHalted_consistent _ hp nofun
      · refine State.finish_consistent nofun nofun ?_
        unfold State.engineConsistent at h ⊢
        simp_all
    · exact State.enterQuiescing_consistent hp (State.halt_of_consistent h)
    · exact h

/-- Every effect of a row keeps the engine consistent. -/
theorem RowEffect.engineConsistent {s t : State} (h : RowEffect s t) (hs : s.engineConsistent = true) :
    t.engineConsistent = true := by
  cases h with
  | completion e isFor handed hops =>
    exact State.complete_consistent e isFor _ _ hs (fun _ _ _ _ => ⟨rfl, rfl⟩)
      fun t u _ hu hc => (hops t u).sameEngine.arrived hu hc
  | stream e isFor early handed effect hfor _ hearly hhanded =>
    refine State.complete_consistent e isFor _ _ hs (fun t u hf _ => ?_) fun t u hf hu hc => ?_
    · obtain ⟨n, hn⟩ := Option.isSome_iff_exists.1 (hfor t hf)
      have hsame : State.SameEngine u (early t u) := (hearly t u n hn).elim State.OpsTo.sameEngine
        fun k => (u.putStream_sameEngine n _).trans k.sameEngine
      exact ⟨hsame.engine, hsame.pin⟩
    · obtain ⟨n, hn⟩ := Option.isSome_iff_exists.1 (hfor t hf)
      exact ((u.putStream_sameEngine n _).trans (hhanded t u n hn).sameEngine).arrived hu hc
  | fatal e r cause hcause =>
    refine State.complete_consistent e _ _ _ hs (fun t u _ hu => ?_) fun t u _ hu hc => ?_
    · unfold State.fatalError State.fatalClaim
      rw [if_neg (by simp [State.settleTransfers, State.recordFault, hu])]
      exact ⟨rfl, rfl⟩
    · exact State.fatalError_engine t hcause hu (State.pin_of_consistent hc (by rcases hu with hu | hu <;> simp [hu]))
  | root e b =>
    exact State.complete_consistent e _ _ _ hs (fun _ _ _ _ => ⟨rfl, rfl⟩) fun t u _ hu hc => u.loadRootBlock_engine b hu hc
  | event t ha hops =>
    obtain ⟨hc, hoff, hq⟩ := hops.sameEngine.arrived (.inr (State.active_of_isActive ha)) hs
    exact State.finish_consistent hoff hq hc
  | tick g lanes ha _ =>
    have K := State.sameEngine_kept s
    have hsame := K.tickGenerator g lanes (K.takeLosses g ⟨rfl, rfl, rfl, rfl, rfl⟩)
    obtain ⟨hc, hoff, hq⟩ := hsame.arrived (.inr (State.active_of_isActive ha)) hs
    exact State.finish_consistent hoff hq hc
  | still _ hops => exact hops.sameEngine.consistent.trans hs
  | control w hp => exact State.writeDeviceControl_consistent w hp hs
  | rootPointer p hoff =>
    unfold State.engineConsistent at hs ⊢
    simp_all [State.tableEmpty]
  | pinDown => exact State.engineConsistent_of_reset ⟨rfl, rfl, rfl, rfl⟩ rfl rfl rfl
  | pinUp =>
    unfold State.engineConsistent at hs ⊢
    simp_all [State.tableEmpty]

end Sys2Proof.Machine

open Sys2Proof Sys2Proof.Machine

/-- Settles O54, by the effects of the rows: what a completion, an event or a register write leaves of the engine. -/
theorem stepKeepsEngineConsistent : Obligations.StepKeepsEngineConsistent := by
  intro s t hs h
  rcases step_effect s t h with rfl | ⟨u, hu, heffect⟩
  · exact hs
  · refine heffect.engineConsistent ?_
    rw [hu]
    exact hs

end

section
/-! What keeps an invariant through every step, and the invariants of a full reset. -/

namespace Sys2Proof.Machine

/-- What keeps `P` through every row but the ticks. -/
structure State.KeptByEvents (P : State → Prop) : Prop extends State.KeptByOps P where
  reset : P State.reset
  blocks : ∀ s t, P s → State.SameBlocks s t → P t
  finish : ∀ s, P s → P s.finish
  freed : ∀ s e t, P s → s.transfer e = some t → P (s.putTransfer e none)
  completes : ∀ s e t n d, P s → s.transfer e = some t → t.requester.stream? = some n → (s.stream n).Completes t d →
    P ((s.putTransfer e none).putStream n d)
  active : ∀ s b, P s → P (s.enterActive b)

/-- What keeps `P` through every row. -/
structure State.KeptByRows (P : State → Prop) : Prop extends State.KeptByEvents P, State.KeptByTicks P

namespace State.KeptByEvents

variable {P : State → Prop}

theorem endQuiesce (K : State.KeptByEvents P) (s : State) : P s.endQuiesce :=
  K.blocks _ _ K.reset ⟨rfl, rfl, rfl, rfl, rfl, List.suffix_rfl⟩

theorem fullReset (K : State.KeptByEvents P) (s : State) : P s.fullReset :=
  K.blocks _ _ K.reset ⟨rfl, rfl, rfl, rfl, rfl, List.suffix_rfl⟩

theorem examineQuiesce (K : State.KeptByEvents P) {s : State} (h : P s) : P s.examineQuiesce := by
  unfold State.examineQuiesce
  split
  · exact K.endQuiesce s
  · exact h

theorem takeQuiesceClaim (K : State.KeptByEvents P) {s : State} (h : P s) : P s.takeQuiesceClaim := by
  unfold State.takeQuiesceClaim
  split
  · exact h
  · exact K.examineQuiesce (K.blocks _ _ h ⟨rfl, rfl, rfl, rfl, rfl, List.suffix_rfl⟩)

theorem enterHalted (K : State.KeptByEvents P) {s : State} (cause : HaltCause) (h : P s) : P (s.enterHalted cause) :=
  K.blocks _ _ h ⟨rfl, rfl, rfl, rfl, rfl, List.suffix_rfl⟩

theorem enterQuiescing (K : State.KeptByEvents P) {s : State} (h : P s) : P s.enterQuiescing := by
  unfold State.enterQuiescing
  refine K.takeQuiesceClaim ?_
  split
  · exact K.blocks _ _ h ⟨rfl, rfl, rfl, rfl, rfl, List.suffix_rfl⟩
  · exact K.blocks _ _ h ⟨rfl, rfl, rfl, rfl, rfl, List.suffix_rfl⟩

theorem enterLoading (K : State.KeptByEvents P) {s : State} (h : P s) : P s.enterLoading := by
  unfold State.enterLoading
  dsimp only
  split
  · exact K.enterHalted _ (K.blocks _ _ h ⟨rfl, rfl, rfl, rfl, rfl, List.suffix_rfl⟩)
  · exact K.finish _ (K.blocks _ _ h ⟨rfl, rfl, rfl, rfl, rfl, List.suffix_rfl⟩)

theorem writeDeviceControl (K : State.KeptByEvents P) {s : State} (w : BitVec 32) (h : P s) :
    P (s.writeDeviceControl w) := by
  have hframe (e : Bool) : P { s with engine := { s.engine with interruptEnable := e } } :=
    K.blocks _ _ h ⟨rfl, rfl, rfl, rfl, rfl, List.suffix_rfl⟩
  cases hw : wordReset w with
  | true =>
    rw [State.writeDeviceControl_reset hw]
    exact K.fullReset s
  | false =>
    rw [State.writeDeviceControl_eq hw]
    dsimp only
    split_ifs
    · exact K.enterLoading (hframe _)
    · exact K.enterQuiescing (hframe _)
    · exact hframe _

theorem fatalError (K : State.KeptByEvents P) {s : State} (t : Transfer) (cause : HaltCause) (h : P s) :
    P (s.fatalError t cause) := by
  have hsettles : P (s.recordFault t).settleTransfers := K.blocks _ _ h ⟨rfl, rfl, rfl, rfl, rfl, List.suffix_rfl⟩
  unfold State.fatalError State.fatalClaim
  split
  · exact K.enterHalted _ hsettles
  · exact hsettles

theorem loadRootBlock (K : State.KeptByEvents P) {s : State} (b : RootBlock) (h : P s) : P (s.loadRootBlock b) := by
  unfold State.loadRootBlock
  split
  · exact h
  · split
    · exact K.active s b h
    · exact K.enterHalted _ h

/-- A completion keeps `P` when its two effects do, on the state in which its entry is free. -/
theorem complete (K : State.KeptByEvents P) {s : State} (e : TransferId) (isFor : Transfer → Bool)
    (early handed : Transfer → State → State) (h : P s)
    (hearly : ∀ t, s.transfer e = some t → isFor t = true → P (early t (s.putTransfer e none)))
    (hhanded : ∀ t, s.transfer e = some t → isFor t = true → P (handed t (s.putTransfer e none))) :
    P (s.complete e isFor early handed) := by
  refine State.complete_cases s e isFor early handed h ?_ ?_ ?_
  · intro t _ ht _ _
    exact K.examineQuiesce (K.freed s e t h ht)
  · intro t _ ht hf _ _
    exact K.takeQuiesceClaim (K.blocks _ _ (hearly t ht hf) ⟨rfl, rfl, rfl, rfl, rfl, List.suffix_rfl⟩)
  · intro t _ ht hf
    exact K.finish _ (hhanded t ht hf)

/-- Every effect of a row keeps `P` when the ticks do. -/
theorem effect (K : State.KeptByEvents P) {s t : State} (h : RowEffect s t) (hs : P s)
    (htick : ∀ g lanes, (s.generator g).completesTick = true → P (s.takeLosses g) → P ((s.takeLosses g).tickGenerator g lanes)) : P t := by
  cases h with
  | completion e isFor handed hops =>
    exact K.complete e isFor _ _ hs (fun t ht _ => K.freed s e t hs ht)
      fun t ht _ => hops t _ P K.toKeptByOps (K.freed s e t hs ht)
  | stream e isFor early handed effect hfor heffect hearly hhanded =>
    have hput (t : Transfer) (n : StreamNo) (ht : s.transfer e = some t) (hf : isFor t = true)
        (hn : t.requester.stream? = some n) : P ((s.putTransfer e none).modifyStream n (effect t)) :=
      K.completes s e t n _ hs ht hn (heffect t _ hf)
    refine K.complete e isFor _ _ hs (fun t ht hf => ?_) fun t ht hf => ?_
    · obtain ⟨n, hn⟩ := Option.isSome_iff_exists.1 (hfor t hf)
      exact (hearly t _ n hn).elim (fun k => k P K.toKeptByOps (K.freed s e t hs ht))
        fun k => k P K.toKeptByOps (hput t n ht hf hn)
    · obtain ⟨n, hn⟩ := Option.isSome_iff_exists.1 (hfor t hf)
      exact hhanded t _ n hn P K.toKeptByOps (hput t n ht hf hn)
  | fatal e r cause _ =>
    exact K.complete e _ _ _ hs (fun t ht _ => K.fatalError t cause (K.freed s e t hs ht))
      fun t ht _ => K.fatalError t cause (K.freed s e t hs ht)
  | root e b =>
    exact K.complete e _ _ _ hs (fun t ht _ => K.freed s e t hs ht)
      fun t ht _ => K.loadRootBlock b (K.freed s e t hs ht)
  | event t _ hops => exact K.finish _ (hops P K.toKeptByOps hs)
  | tick g lanes _ hg => exact K.finish _ (htick g lanes hg (K.takeLosses g hs))
  | still _ hops => exact hops P K.toKeptByOps hs
  | control w _ => exact K.writeDeviceControl w hs
  | rootPointer p _ => exact K.blocks _ _ hs ⟨rfl, rfl, rfl, rfl, rfl, List.suffix_rfl⟩
  | pinDown => exact K.blocks _ _ (K.fullReset s) ⟨rfl, rfl, rfl, rfl, rfl, List.suffix_rfl⟩
  | pinUp => exact K.blocks _ _ hs ⟨rfl, rfl, rfl, rfl, rfl, List.suffix_rfl⟩

/-- What every row keeps when the ticks do, every step keeps. -/
theorem stepOutsideTicks (K : State.KeptByEvents P) {s t : State} (hs : P s) (h : Machine.step s = .next t)
    (htick : ∀ u g lanes, State.SameBlocks s u → (u.generator g).completesTick = true → P (u.takeLosses g) →
      P ((u.takeLosses g).tickGenerator g lanes)) : P t := by
  rcases step_effect s t h with rfl | ⟨u, hu, heffect⟩
  · exact hs
  · have hsame : State.SameBlocks s u := by
      rw [hu]
      exact ⟨rfl, rfl, rfl, rfl, rfl, List.suffix_rfl⟩
    exact K.effect heffect (K.blocks _ _ hs hsame) fun g lanes => htick u g lanes hsame

end State.KeptByEvents

/-- What every row keeps, every step keeps. -/
theorem State.KeptByRows.step {P : State → Prop} (K : State.KeptByRows P) {s t : State} (hs : P s)
    (h : Machine.step s = .next t) : P t :=
  K.stepOutsideTicks hs h fun _ g lanes _ _ hu => K.tickGenerator g lanes hu


end Sys2Proof.Machine

open Sys2Proof Sys2Proof.Machine

/-- Settles O53: the blocks are empty and the streams CLOSED. -/
theorem resetMeetsInvariants : Obligations.ResetMeetsInvariants := by
  refine ⟨State.engineConsistent_of_reset ⟨rfl, rfl, rfl, rfl⟩ rfl rfl rfl, by decide, by decide, by decide, by decide,
    by decide, by decide, fun n hrun => ?_⟩
  rw [State.reset_stream] at hrun
  cases hrun

end

section
/-! The Schedule Table through every step (chapter 5): ids differ, and a closing event belongs to its decided entry. -/

namespace Sys2Proof.Machine

/-- An entry that is WAITING has no answer, one that is WAITING or FIRING no closing event, and a closing event closes the
entry that holds it. -/
structure ScheduleEntry.Consistent (x : ScheduleEntry) : Prop where
  waiting : x.state = .waiting → x.answered = 0 ∧ x.closing = none
  firing : x.state = .firing → x.closing = none
  closing : ∀ ev ∈ x.closing, ev.closesEntry x.id = true

/-- The ids of the entries differ and every entry is consistent. -/
def entriesConsistent (l : List ScheduleEntry) : Prop := (l.map (fun x => x.id)).Nodup ∧ ∀ x ∈ l, x.Consistent

theorem State.scheduleConsistent_iff (s : State) : s.scheduleConsistent = true ↔ entriesConsistent s.schedule.entries := by
  simp only [State.scheduleConsistent, entriesConsistent, Bool.and_eq_true, decide_eq_true_eq, List.all_eq_true,
    Bool.or_eq_true, bne_iff_ne, Option.isNone_iff_eq_none, beq_iff_eq, Option.all_eq_true]
  refine and_congr_right fun _ => forall₂_congr fun x _ => ?_
  constructor
  · rintro ⟨⟨hw, hf⟩, hc⟩
    exact ⟨fun h => hw.resolve_left (not_not_intro h), fun h => hf.resolve_left (not_not_intro h), hc⟩
  · rintro ⟨hw, hf, hc⟩
    exact ⟨⟨or_iff_not_imp_left.2 fun h => hw (not_not.1 h), or_iff_not_imp_left.2 fun h => hf (not_not.1 h)⟩, hc⟩

namespace entriesConsistent

variable {l : List ScheduleEntry}

theorem nil : entriesConsistent [] := ⟨List.nodup_nil, fun _ hx => absurd hx List.not_mem_nil⟩

/-- A change of the entries that leaves each its id. -/
theorem map (h : entriesConsistent l) (f : ScheduleEntry → ScheduleEntry) (hid : ∀ x, (f x).id = x.id)
    (hf : ∀ x ∈ l, x.Consistent → (f x).Consistent) : entriesConsistent (l.map f) := by
  refine ⟨?_, fun y hy => ?_⟩
  · rw [List.map_map]
    exact (congrArg List.Nodup (List.map_congr_left fun x _ => hid x)).mpr h.1
  · obtain ⟨x, hx, rfl⟩ := List.mem_map.1 hy
    exact hf x hx (h.2 x hx)

theorem filter (h : entriesConsistent l) (p : ScheduleEntry → Bool) : entriesConsistent (l.filter p) :=
  ⟨h.1.sublist (List.filter_sublist.map _), fun x hx => h.2 x (List.mem_of_mem_filter hx)⟩

theorem append (h : entriesConsistent l) {e : ScheduleEntry} (hid : ∀ x ∈ l, x.id ≠ e.id) (he : e.Consistent) :
    entriesConsistent (l ++ [e]) := by
  refine ⟨?_, fun x hx => ?_⟩
  · rw [List.map_append, List.nodup_append]
    refine ⟨h.1, by simp, ?_⟩
    intro a ha b hb
    obtain ⟨x, hx, rfl⟩ := List.mem_map.1 ha
    rw [List.map_singleton, List.mem_singleton] at hb
    rw [hb]
    exact hid x hx
  · rcases List.mem_append.1 hx with hx | hx
    · exact h.2 x hx
    · rw [List.mem_singleton.1 hx]
      exact he

/-- The entry that a search by id finds is the only one of its id. -/
theorem eq_of_find (h : entriesConsistent l) {id : EntryId} {e x : ScheduleEntry}
    (he : l.find? (fun e => e.id == id) = some e) (hx : x ∈ l) (hid : x.id = id) : x = e :=
  List.inj_on_of_nodup_map h.1 hx (List.mem_of_find?_eq_some he) (hid.trans (by simpa using List.find?_some he : e.id = id).symm)

end entriesConsistent

theorem fireEntries_ids (g : GenNo) (p : Position) (older : List EntryId) (l : List ScheduleEntry) :
    (fireEntries g p older l).map (fun x => x.id) = l.map (fun x => x.id) := by
  induction l generalizing older with
  | nil => rfl
  | cons e l ih =>
    unfold fireEntries
    split <;> simp [ih]

theorem fireEntries_consistent (g : GenNo) (p : Position) (older : List EntryId) (l : List ScheduleEntry)
    (h : ∀ x ∈ l, x.Consistent) : ∀ x ∈ fireEntries g p older l, x.Consistent := by
  induction l generalizing older with
  | nil => exact h
  | cons e l ih =>
    have he := h e (by simp)
    have hl : ∀ x ∈ l, x.Consistent := fun x hx => h x (by simp [hx])
    unfold fireEntries
    split
    · rename_i hfires
      have hw : e.state = .waiting := by
        simp only [Bool.and_eq_true, beq_iff_eq] at hfires
        exact hfires.1.2
      intro x hx
      rcases List.mem_cons.1 hx with rfl | hx
      · exact ⟨nofun, fun _ => (he.waiting hw).2, he.closing⟩
      · exact ih _ hl x hx
    · intro x hx
      rcases List.mem_cons.1 hx with rfl | hx
      · exact he
      · exact ih _ hl x hx

/-- Every change of the Schedule Unit keeps its entries consistent. -/
theorem ScheduleUnit.Moves.consistent {x y : ScheduleUnit} (h : x.Moves y) (hx : entriesConsistent x.entries) :
    entriesConsistent y.entries := by
  cases h with
  | removes id n reason =>
    refine hx.map _ (fun x => ?_) fun x _ hc => ?_
    · split <;> rfl
    · split
      · exact ⟨hc.waiting, hc.firing, hc.closing⟩
      · exact hc
  | answers id n e he hs =>
    refine hx.map _ (fun x => ?_) fun y hy hc => ?_
    · split <;> rfl
    · split
      · rename_i hid
        have hfound : y.state = .firing := by
          rw [hx.eq_of_find he hy (by simpa using hid)]
          exact hs
        exact ⟨fun hw => by simp [hfound] at hw, hc.firing, hc.closing⟩
      · exact hc
  | created id =>
    refine hx.map _ (fun x => ?_) fun x _ hc => ?_
    · split <;> rfl
    · split
      · exact ⟨hc.waiting, hc.firing, hc.closing⟩
      · exact hc
  | decides id state ev hs he offering =>
    refine hx.map _ (fun x => ?_) fun x _ hc => ?_
    · dsimp only
      split <;> rfl
    · dsimp only
      split
      · rename_i hid
        rw [beq_iff_eq] at hid
        refine ⟨fun hw => ?_, fun hw => ?_, ?_⟩
        · rcases hs with hs | hs <;> simp [hs] at hw
        · rcases hs with hs | hs <;> simp [hs] at hw
        · rintro _ ⟨⟩
          rw [hid]
          exact he
      · exact ⟨hc.waiting, hc.firing, hc.closing⟩
  | places id => exact hx.filter _
  | hands claim => exact hx
  | takes claim => exact hx
  | takesLoss claim => exact hx
  | loses claim => exact hx
  | fires g position =>
    exact ⟨(congrArg List.Nodup (fireEntries_ids g position [] x.entries)).mpr hx.1,
      fireEntries_consistent g position [] x.entries hx.2⟩

/-- The Schedule Table's consistency is kept by every row. -/
theorem schedule_keptByRows : State.KeptByRows (fun s => entriesConsistent s.schedule.entries) where
  accept := fun _ _ h _ => h
  context := fun _ _ _ h _ _ => h
  close := fun _ _ h _ _ => h
  port := fun _ _ _ h _ => h
  discard := fun s n h _ => by
    rw [State.discardReads_eq]
    exact h
  command := fun _ _ h _ => h
  schedule := fun _ _ h hm => hm.consistent h
  frame := fun s t h k => by
    rw [k.schedule]
    exact h
  ticks := fun _ _ _ h _ => h
  opens := fun _ _ _ _ h _ _ => h
  generator := fun _ _ _ h _ => h
  generatorTicks := fun _ _ h => h
  adds := fun s e h _ hid hw ha hc => h.append hid ⟨fun _ => ⟨ha, hc⟩, fun _ => hc, by
    rw [hc]
    exact nofun⟩
  dues := fun _ _ hx => hx.map _ (fun _ => by split <;> rfl) fun _ _ hc => by
    split
    · exact ⟨hc.waiting, hc.firing, hc.closing⟩
    · exact hc
  reset := entriesConsistent.nil
  blocks := fun s t h k => by
    rw [k.schedule]
    exact h
  finish := fun s h => by
    rw [State.finish_schedule]
    exact h
  freed := fun _ _ _ h _ => h
  completes := fun _ _ _ _ _ h _ _ _ => h
  active := fun _ _ h => h

end Sys2Proof.Machine

open Sys2Proof Sys2Proof.Machine

/-- Settles O59, by the changes of the Schedule Unit that the rows are made of. -/
theorem stepKeepsSchedule : Obligations.StepKeepsSchedule := by
  intro s t hs h
  rw [State.scheduleConsistent_iff] at hs ⊢
  exact schedule_keptByRows.step hs h

end

section
/-! The grants that close a step, as a rule (section 8.4): what each request and each grant keeps is kept by the end of
every step. -/

namespace Sys2Proof.Machine

/-! ### Counting transfers -/

theorem State.putTransfer_outstanding (s : State) (e : TransferId) (o : Option Transfer) (r : Requester) :
    (s.putTransfer e o).outstanding r + ((s.transfer e).any (fun t => t.requester == r)).toNat
      = s.outstanding r + (o.any (fun t => t.requester == r)).toNat := by
  have he : s.transfers.table.toList[e.val]'(by simp) = s.transfer e := by simp [State.transfer]
  have hle : ((s.transfer e).any (fun t => t.requester == r)).toNat ≤ s.outstanding r := by
    cases ht : s.transfer e with
    | none => simp
    | some t =>
      cases hr : t.requester == r with
      | false => simp [hr]
      | true =>
        rw [beq_iff_eq] at hr
        have := s.outstanding_ne_zero e t ht
        rw [hr] at this
        simp only [Option.any_some, hr, beq_self_eq_true, Bool.toNat_true]
        omega
  rw [State.outstanding_eq_countP] at hle ⊢
  rw [State.outstanding_eq_countP, State.putTransfer, Vector.toList_set, List.countP_set (by simp), he]
  have hcount (a b : Bool) (k : Nat) (h : a.toNat ≤ k) :
      (k - if a = true then 1 else 0) + (if b = true then 1 else 0) + a.toNat = k + b.toNat := by
    cases a <;> cases b <;> simp at h ⊢ <;> omega
  exact hcount _ _ _ hle

/-- Freeing an entry lowers the count of its requester alone. -/
theorem State.outstanding_freed {s : State} {e : TransferId} {t : Transfer} (h : s.transfer e = some t) (r : Requester) :
    (s.putTransfer e none).outstanding r + (t.requester == r).toNat = s.outstanding r := by
  have := s.putTransfer_outstanding e none r
  rw [h] at this
  simpa using this

/-- A grant raises the count of its requester alone. -/
theorem State.outstanding_granted {s : State} {e : TransferId} (t : Transfer) (h : s.transfer e = none) (r : Requester) :
    (s.putTransfer e (some t)).outstanding r = s.outstanding r + (t.requester == r).toNat := by
  have := s.putTransfer_outstanding e (some t) r
  rw [h] at this
  simpa using this

/-! ### The requests and the grants -/

/-- What keeps `P` through the end of a step. -/
structure State.KeptByGrants (P : State → Prop) : Prop where
  prefetch : ∀ s n, P s → P (s.putStream n (s.stream n).prefetchGaps)
  presents : ∀ s n, P s → s.wantsRecord n = true → P (s.putStream n { s.stream n with readPresented := true })
  phase : ∀ s p, P s → P { s with command := { s.command with phase := p } }
  issues : ∀ s e t, P s → s.transfer e = none → t.requester.stream? = none → P (s.putTransfer e (some t))
  posts : ∀ s, P s → P { s with events := s.events.recordWrite }
  reads : ∀ s e n r, P s → s.transfer e = none → s.wantsRead n = true → (s.stream n).current = some r →
    P ((s.putTransfer e (some ((s.stream n).formRead n r))).putStream n
      ((s.stream n).recordRead r ((s.stream n).formRead n r).length))
  writes : ∀ s e n t ring pass offset, P s → s.transfer e = none → s.wantsWrite n = true →
    (s.stream n).formWrite n = some t → t.item = .frames ring pass offset →
    P ((s.putTransfer e (some t)).putStream n ((s.stream n).recordWrite ring offset t.length))
  records : ∀ s e n, P s → s.transfer e = none → (s.stream n).readPresented = true →
    P ((s.putTransfer e (some ((s.stream n).formRecordRead n))).putStream n { s.stream n with readPresented := false })
  pointers : ∀ s u d r, P s →
    P { s with transfers := { s.transfers with lastUrgent := u, lastData := d, lastRecord := r } }

theorem State.wantsRead_direction {s : State} {n : StreamNo} (h : s.wantsRead n = true) :
    (s.stream n).direction = .output := by
  simp only [State.wantsRead, Bool.and_eq_true, beq_iff_eq] at h
  exact h.1.1.1.1

theorem State.wantsWrite_direction {s : State} {n : StreamNo} (h : s.wantsWrite n = true) :
    (s.stream n).direction = .capture := by
  simp only [State.wantsWrite, Bool.and_eq_true, beq_iff_eq] at h
  exact h.1.1.1

namespace State.KeptByGrants

variable {P : State → Prop}

theorem grantData (K : State.KeptByGrants P) {s : State} {e : TransferId} {n : StreamNo} (he : s.transfer e = none)
    (hwants : s.wantsData n = true) (h : P s) : P (s.grantData e n) := by
  unfold State.grantData
  dsimp only
  split
  · rename_i hd
    split
    · exact h
    · rename_i r hr
      have hread : s.wantsRead n = true := by
        rcases Bool.or_eq_true_iff.1 hwants with hw | hw
        · exact hw
        · simp [State.wantsWrite_direction hw] at hd
      have := K.prefetch _ n (K.reads s e n r h he hread hr)
      rwa [State.stream_putStream, State.putStream_putStream] at this
  · rename_i hd
    split
    · exact h
    · rename_i t ht
      split
      · rename_i ring pass offset hitem
        have hwrite : s.wantsWrite n = true := by
          rcases Bool.or_eq_true_iff.1 hwants with hw | hw
          · simp [State.wantsRead_direction hw] at hd
          · exact hw
        exact K.writes s e n t ring pass offset h he hwrite ht hitem
      · exact h

theorem grantOne (K : State.KeptByGrants P) {s t : State} (hg : s.grantOne = some t) (h : P s) : P t := by
  unfold State.grantOne at hg
  split at hg
  · cases hg
  · rename_i e hfree
    have he := s.freeEntry_free e hfree
    split at hg
    · cases hg
      exact K.issues s e _ h he rfl
    · split at hg
      · rename_i n hn
        cases hg
        have hwants := (Bool.and_eq_true_iff.1
          (List.find?_some (p := fun n => s.wantsData n && (s.stream n).isUrgent) hn)).1
        exact K.pointers _ _ _ _ (K.grantData he hwants h)
      · split at hg
        · cases hg
          exact K.issues _ e _ (K.posts s h) he rfl
        · split at hg
          · cases hg
            exact K.issues s e _ h he rfl
          · split at hg
            · rename_i n hn
              cases hg
              exact K.pointers _ _ _ _ (K.grantData he (List.find?_some (p := s.wantsData) hn) h)
            · split at hg
              · rename_i n hn
                cases hg
                exact K.pointers _ _ _ _ (K.records s e n h he (List.find?_some (p := fun n => (s.stream n).readPresented) hn))
              · cases hg

theorem grantFuel (K : State.KeptByGrants P) (k : Nat) {s : State} (h : P s) : P (grantFuel k s) := by
  induction k generalizing s with
  | zero => exact h
  | succ k ih =>
    unfold Machine.grantFuel
    split
    · exact h
    · rename_i hg
      exact ih (K.grantOne hg h)

theorem present (K : State.KeptByGrants P) {s : State} (n : StreamNo) (h : P s) : P (s.present n) := by
  unfold State.present
  dsimp only
  split
  · rename_i hw
    exact K.presents _ n (K.prefetch s n h) hw
  · exact K.prefetch s n h

theorem presentCommand (K : State.KeptByGrants P) {s : State} (h : P s) : P s.presentCommand := by
  unfold State.presentCommand
  dsimp only
  split
  · exact K.phase s _ h
  · split
    · exact K.phase s _ h
    · exact h

/-- The end of a step keeps what its requests and grants keep. -/
theorem finish (K : State.KeptByGrants P) {s : State} (h : P s) : P s.finish := by
  have hpresented : P (if s.isActive then (Config.streams.foldl State.present s).presentCommand else s) := by
    split
    · exact K.presentCommand (State.foldl_kept _ _ (fun _ n _ h => K.present n h) h)
    · exact h
  unfold State.finish
  generalize (if s.isActive then (Config.streams.foldl State.present s).presentCommand else s) = u at hpresented
  dsimp only
  split
  · exact K.grantFuel 8 hpresented
  · exact hpresented

end State.KeptByGrants

end Sys2Proof.Machine
end

section
/-! The lists within their places through every step (R34, R49, R79, R93, R148). -/

namespace Sys2Proof.Machine

/-! ### One context -/

/-- A context within its places, with `k` record reads outstanding. -/
structure Stream.Bounded (c : Stream) (k : Nat) : Prop where
  shape : c.shapeLegal = true
  staging : c.staging.length + k + c.readPresented.toNat ≤ 16
  fifo : c.fifo.length ≤ 32
  places : ∀ p ∈ c.fifo, p.bytes.length = c.frameSize
  split : c.fetchSplit < c.frameSize

/-- A generator's divider is not 0, and a RUNNING one has counted fewer edges. -/
def Generator.Bounded (x : Generator) : Prop := 1 ≤ x.divider ∧ (x.state = .running → x.edges < x.divider)

/-- The lists of every block are within their places. -/
structure State.Bounded (s : State) : Prop where
  holding : s.events.holding.length ≤ 8
  entries : s.schedule.entries.length ≤ 8
  generators : ∀ g, (s.generator g).Bounded
  streams : ∀ n, (s.stream n).Bounded (s.outstanding (.streamRecord n))

theorem State.bounded_iff (s : State) : s.bounded = true ↔ s.Bounded := by
  simp only [State.bounded, Bool.and_eq_true, decide_eq_true_eq, List.all_eq_true, Bool.or_eq_true, bne_iff_ne, beq_iff_eq]
  constructor
  · rintro ⟨⟨⟨hh, he⟩, hg⟩, hs⟩
    refine ⟨hh, he, fun g => ?_, fun n => ?_⟩
    · obtain ⟨hd, he⟩ := hg g (mem_configGenerators g)
      exact ⟨hd, fun h => he.resolve_left (not_not_intro h)⟩
    · obtain ⟨⟨⟨⟨h1, h2⟩, h3⟩, h4⟩, h5⟩ := hs n (mem_configStreams n)
      exact ⟨h1, h2, h3, h4, h5⟩
  · intro h
    refine ⟨⟨⟨h.holding, h.entries⟩, fun g _ => ⟨(h.generators g).1, ?_⟩⟩, fun n _ => ?_⟩
    · exact or_iff_not_imp_left.2 fun hr => (h.generators g).2 (not_not.1 hr)
    · have hn := h.streams n
      exact ⟨⟨⟨⟨hn.shape, hn.staging⟩, hn.fifo⟩, hn.places⟩, hn.split⟩

theorem Stream.frameSize_pos {c : Stream} (h : c.shapeLegal = true) : 0 < c.frameSize := by
  simp only [Stream.shapeLegal, Bool.and_eq_true, decide_eq_true_eq, Bool.or_eq_true, beq_iff_eq] at h
  obtain ⟨⟨h1, _⟩, hw⟩ := h
  unfold Stream.frameSize
  rcases hw with hw | hw <;> rw [hw] <;> omega

theorem unretired_length (l : List StagedRecord) : (unretired l).length = l.length := List.length_map _

theorem closedStream_bounded {k : Nat} (h : k ≤ 16) : closedStream.Bounded k :=
  ⟨by decide, by simpa [closedStream] using h, by decide, nofun, by decide⟩

namespace Stream.Bounded

variable {c d : Stream} {k : Nat}

theorem of_le {j : Nat} (h : c.Bounded k) (hj : j ≤ k) : c.Bounded j :=
  ⟨h.shape, by have := h.staging; omega, h.fifo, h.places, h.split⟩

/-- A change of the staging list, the FIFO and the fetch split alone. -/
theorem change (h : c.Bounded k) (shape : d.slots = c.slots ∧ d.width = c.width)
    (staging : d.staging.length + d.readPresented.toNat ≤ c.staging.length + c.readPresented.toNat)
    (fifo : d.fifo.length ≤ 32) (places : ∀ p ∈ d.fifo, p.bytes.length = c.frameSize)
    (split : d.fetchSplit < c.frameSize) : d.Bounded k := by
  obtain ⟨hslots, hwidth⟩ := shape
  have hsize : d.frameSize = c.frameSize := by simp [Stream.frameSize, hslots, hwidth]
  refine ⟨?_, ?_, fifo, ?_, ?_⟩
  · rw [← h.shape]
    simp [Stream.shapeLegal, hslots, hwidth]
  · have := h.staging
    omega
  · rwa [hsize]
  · rwa [hsize]

/-- A change that leaves the FIFO as it is. -/
theorem sameFifo (h : c.Bounded k) (shape : d.slots = c.slots ∧ d.width = c.width)
    (staging : d.staging.length + d.readPresented.toNat ≤ c.staging.length + c.readPresented.toNat)
    (fifo : d.fifo = c.fifo) (split : d.fetchSplit = c.fetchSplit) : d.Bounded k :=
  h.change shape staging (fifo ▸ h.fifo) (fun p hp => h.places p (fifo ▸ hp)) (split ▸ h.split)

end Stream.Bounded

theorem captureEmptied_length_le (k : Nat) (l : List Place) : (captureEmptied k l).length ≤ l.length := by
  simpa [captureEmptied] using List.length_filter_le _ l

theorem captureEmptied_bytes {k j : Nat} {l : List Place} (h : ∀ p ∈ l, p.bytes.length = j) :
    ∀ p ∈ captureEmptied k l, p.bytes.length = j := by
  intro p hp
  obtain ⟨q, hq, rfl⟩ := List.mem_map.1 hp
  have := h q (List.mem_of_mem_filter hq)
  split <;> exact this

theorem Stream.Carries.bounded {c d : Stream} {k : Nat} (h : c.Carries d) (hc : c.Bounded k) : d.Bounded k := by
  have hpresented : d.readPresented = c.readPresented := by rw [h.body]
  refine hc.change ⟨by rw [h.body], by rw [h.body]⟩ ?_ ?_ ?_ ?_
  · have := h.staging.length_le
    rw [unretired_length, unretired_length] at this
    rw [hpresented]
    omega
  · rcases h.fifo with ⟨hf, _⟩ | ⟨_, hf, _⟩ | ⟨_, hf, _⟩ <;> rw [hf]
    · exact hc.fifo
    · simp
    · exact (captureEmptied_length_le _ _).trans hc.fifo
  · rcases h.fifo with ⟨hf, _⟩ | ⟨_, hf, _⟩ | ⟨_, hf, _⟩ <;> rw [hf]
    · exact hc.places
    · simp
    · exact captureEmptied_bytes hc.places
  · rcases h.fifo with ⟨_, hf⟩ | ⟨_, _, hf⟩ | ⟨_, _, hf⟩ <;> rw [hf]
    · exact hc.split
    · exact Stream.frameSize_pos hc.shape
    · exact hc.split

theorem Stream.Ticks.bounded {c d : Stream} {k : Nat} (h : c.Ticks d) (hc : c.Bounded k) : d.Bounded k := by
  cases h with
  | begins t _ => exact hc.sameFifo ⟨rfl, rfl⟩ le_rfl rfl rfl
  | starves => exact hc.sameFifo ⟨rfl, rfl⟩ le_rfl rfl rfl
  | tails => exact hc.sameFifo ⟨rfl, rfl⟩ le_rfl rfl rfl
  | recovers => exact hc.sameFifo ⟨rfl, rfl⟩ le_rfl rfl rfl
  | passes t p rest hp =>
    have hlength := hc.fifo
    rw [hp, List.length_cons] at hlength
    refine hc.change ⟨rfl, rfl⟩ ?_ ?_ (fun q hq => hc.places q ?_) hc.split
    · simp [Stream.passed, Stream.modifyRecord]
    · exact (Nat.le_succ _).trans hlength
    · rw [hp]
      exact List.mem_cons_of_mem _ hq
  | assigns t r frame hd hr room hf =>
    have hplaces := hc.fifo
    refine hc.change ⟨rfl, rfl⟩ ?_ ?_ ?_ hc.split
    · simp [Stream.assigned, Stream.modifyRecord]
    · simp only [Stream.assigned, Stream.modifyRecord]
      split
      · exact hplaces
      · rename_i hgap
        have hfree := room.resolve_left hgap
        simp only [Stream.freePlaces, Config.fifoPlaces] at hfree
        rw [List.length_append, List.length_singleton]
        omega
    · simp only [Stream.assigned, Stream.modifyRecord]
      split
      · exact hc.places
      · intro p hp
        rcases List.mem_append.1 hp with hp | hp
        · exact hc.places p hp
        · rw [List.mem_singleton.1 hp]
          simpa [assignedPlace] using hf hc.shape

theorem openedStream_bounded {p : OpenParams} {c : Stream} {k : Nat} (h : openedStream p = some c) (hk : k ≤ 16) :
    c.Bounded k := by
  unfold openedStream at h
  split at h
  · dsimp only at h
    split at h
    · rename_i hrange
      obtain ⟨h1, h8, hw, _⟩ := hrange
      cases h
      have hshape : 1 ≤ p.slots.toNat ∧ p.slots.toNat ≤ 8 ∧ (p.width.toNat = 16 ∨ p.width.toNat = 32) := ⟨h1, h8, hw⟩
      refine ⟨by simpa [Stream.shapeLegal, and_assoc] using hshape, by simpa [closedStream] using hk, Nat.zero_le _, nofun, ?_⟩
      refine Stream.frameSize_pos ?_
      simpa [Stream.shapeLegal, and_assoc] using hshape
    · cases h
  · cases h

theorem fillPlace_bytes (frameSize ring pass offset : Nat) (data : List Byte) (p : Place) :
    (fillPlace frameSize ring pass offset data p).bytes.length = p.bytes.length := by
  unfold fillPlace
  split <;> simp

theorem Place.afterWrite_bytes (frameSize ring offset length : Nat) (ok : Bool) (p : Place) :
    (p.afterWrite frameSize ring offset length ok).bytes = p.bytes := by
  unfold Place.afterWrite
  dsimp only
  split
  · split <;> rfl
  · rfl

/-- What a completion makes of a context leaves it within its places; a record that arrives takes its read's place. -/
theorem Stream.Completes.bounded {t : Transfer} {c d : Stream} {k : Nat} (h : c.Completes t d)
    (hc : c.Bounded (k + t.isRecordRead.toNat)) : d.Bounded k := by
  have hk : c.Bounded k := hc.of_le (Nat.le_add_right _ _)
  cases h with
  | read data _ =>
    unfold Stream.completeRead
    split
    · dsimp only
      split
      · exact hk.sameFifo ⟨rfl, rfl⟩ (by simp [Stream.modifyRecord]) rfl rfl
      · refine hk.change ⟨rfl, rfl⟩ (by simp [Stream.modifyRecord]) ?_ (fun p hp => ?_) hk.split
        · simpa [Stream.modifyRecord] using hk.fifo
        · obtain ⟨q, hq, rfl⟩ := List.mem_map.1 hp
          rw [fillPlace_bytes]
          exact hk.places q hq
    · exact hk
  | failedRead _ =>
    unfold Stream.failRead
    split
    · exact hk.sameFifo ⟨rfl, rfl⟩ (by simp [Stream.modifyRecord]) rfl rfl
    · exact hk
  | write ok _ =>
    unfold Stream.finishWrite
    split
    · rename_i ring pass offset _
      unfold Stream.completeWrite
      refine hk.change ⟨rfl, rfl⟩ (by simp [Stream.modifyRecord]) ?_ (fun p hp => ?_) hk.split
      · exact (List.length_filter_le _ _).trans ((List.length_map _).trans_le hk.fifo)
      · obtain ⟨q, hq, rfl⟩ := List.mem_map.1 (List.mem_of_mem_filter hp)
        rw [Place.afterWrite_bytes]
        exact hk.places q hq
    · exact hk
  | arrives r ht =>
    unfold Stream.recordArrives
    split
    · have hstaging := hc.staging
      rw [ht, Bool.toNat_true] at hstaging
      refine ⟨hk.shape, ?_, hk.fifo, hk.places, hk.split⟩
      simp only [Stream.takeRecord, List.length_append, List.length_singleton]
      omega
    · exact hk
  | nothing => exact hk

/-! ### Prefetch and grants -/

theorem placeGaps_bounded {c : Stream} {k : Nat} (j : Nat) (h : c.Bounded k) : (placeGaps j c).Bounded k := by
  induction j generalizing c with
  | zero => exact h
  | succ j ih =>
    unfold placeGaps
    split
    · exact h
    · rename_i r _
      dsimp only
      split
      · refine ih (h.change ⟨rfl, rfl⟩ (by simp [Stream.modifyRecord]) ?_ (fun p hp => ?_) h.split)
        · have := h.fifo
          simp only [Stream.modifyRecord, List.length_append, List.length_map, List.length_range, Stream.freePlaces,
            Config.fifoPlaces]
          omega
        · rcases List.mem_append.1 hp with hp | hp
          · exact h.places p hp
          · obtain ⟨i, _, rfl⟩ := List.mem_map.1 hp
            simp [gapPlace]
      · exact h

theorem Stream.prefetchGaps_bounded {c : Stream} {k : Nat} (h : c.Bounded k) : c.prefetchGaps.Bounded k := by
  unfold Stream.prefetchGaps
  split
  · exact placeGaps_bounded _ h
  · exact h

/-- A transfer is no longer than its reach (R52, R61). -/
theorem transferLength_le (frameSize frameCount : Nat) (a : Addr) (offset room : Nat) :
    transferLength frameSize frameCount a offset room ≤
      min (min 256 (frameCount * frameSize - offset)) (min (bytesToBoundary a) room) := by
  unfold transferLength
  dsimp only
  have hwhole := Nat.div_mul_le_self
    (offset + min (min 256 (frameCount * frameSize - offset)) (min (bytesToBoundary a) room)) frameSize
  split
  · rw [show Config.transferBytes = 256 from rfl]
    omega
  · exact le_rfl

theorem Stream.recordRead_bounded {c : Stream} {k : Nat} (n : StreamNo) (r : StagedRecord) (h : c.Bounded k) :
    (c.recordRead r (c.formRead n r).length).Bounded k := by
  have hpos := Stream.frameSize_pos h.shape
  unfold Stream.recordRead
  refine h.change ⟨rfl, rfl⟩ (by simp [Stream.modifyRecord]) ?_ (fun p hp => ?_) (Nat.mod_lt _ hpos)
  · have hroom : (c.formRead n r).length
        ≤ (if c.fetchSplit == 0 then 0 else c.frameSize - c.fetchSplit) + c.frameSize * c.freePlaces :=
      ((transferLength_le _ _ _ _ _).trans (min_le_right _ _)).trans (min_le_right _ _)
    have hfree : c.freePlaces = 32 - c.fifo.length := rfl
    have hfifo := h.fifo
    have hsplit := h.split
    generalize (c.formRead n r).length = len at hroom
    simp only [Stream.modifyRecord, List.length_append, List.length_map, List.length_range]
    by_cases h0 : c.fetchSplit = 0
    · rw [h0] at hroom ⊢
      simp only [beq_self_eq_true, if_true, Nat.add_zero, Nat.zero_add] at hroom ⊢
      have hceil : (r.progress * c.frameSize + len + c.frameSize - 1) / c.frameSize ≤ r.progress + c.freePlaces := by
        rw [← Nat.lt_add_one_iff, Nat.div_lt_iff_lt_mul hpos]
        calc r.progress * c.frameSize + len + c.frameSize - 1
            < r.progress * c.frameSize + c.frameSize * c.freePlaces + c.frameSize := by omega
          _ = (r.progress + c.freePlaces + 1) * c.frameSize := by ring
      omega
    · have h0' : (c.fetchSplit == 0) = false := by simpa using h0
      rw [h0'] at hroom ⊢
      simp only [Bool.false_eq_true, if_false] at hroom ⊢
      have hceil : (r.progress * c.frameSize + c.fetchSplit + len + c.frameSize - 1) / c.frameSize
          ≤ r.progress + 1 + c.freePlaces := by
        rw [← Nat.lt_add_one_iff, Nat.div_lt_iff_lt_mul hpos]
        calc r.progress * c.frameSize + c.fetchSplit + len + c.frameSize - 1
            < r.progress * c.frameSize + c.frameSize + c.frameSize * c.freePlaces + c.frameSize := by omega
          _ = (r.progress + 1 + c.freePlaces + 1) * c.frameSize := by ring
      omega
  · rcases List.mem_append.1 hp with hp | hp
    · exact h.places p hp
    · obtain ⟨i, _, rfl⟩ := List.mem_map.1 hp
      simp [reservedPlace]

theorem Stream.recordWrite_bounded {c : Stream} {k : Nat} (ring offset length : Nat) (h : c.Bounded k) :
    (c.recordWrite ring offset length).Bounded k := by
  unfold Stream.recordWrite
  refine h.change ⟨rfl, rfl⟩ (by simp [Stream.modifyRecord]) ?_ (fun p hp => ?_) h.split
  · simpa [Stream.modifyRecord] using h.fifo
  · obtain ⟨q, hq, rfl⟩ := List.mem_map.1 hp
    have := h.places q hq
    dsimp only
    split <;> exact this

/-! ### The state -/

theorem streamRecord_beq (n m : StreamNo) : (Requester.streamRecord n == Requester.streamRecord m) = (n == m) := by
  rw [Bool.eq_iff_iff, beq_iff_eq, beq_iff_eq, Requester.streamRecord.injEq]

namespace State.Bounded

variable {s t : State}

/-- A state whose lists, streams and generators are those of `s`. -/
theorem congr (h : s.Bounded) (holding : t.events.holding.length ≤ s.events.holding.length)
    (entries : t.schedule.entries.length ≤ s.schedule.entries.length)
    (generators : t.timebase.generators = s.timebase.generators) (streams : t.streams = s.streams)
    (outstanding : ∀ n, t.outstanding (.streamRecord n) ≤ s.outstanding (.streamRecord n)) : t.Bounded where
  holding := holding.trans h.holding
  entries := entries.trans h.entries
  generators := fun g => by
    rw [State.generator, generators]
    exact h.generators g
  streams := fun n => by
    rw [State.stream, streams]
    exact (h.streams n).of_le (outstanding n)

/-- A change of one context, which may take the place of a record read. -/
theorem put (h : s.Bounded) {n : StreamNo} {d : Stream} (hd : d.Bounded (s.outstanding (.streamRecord n))) :
    (s.putStream n d).Bounded where
  holding := h.holding
  entries := h.entries
  generators := h.generators
  streams := fun m => by
    rcases eq_or_ne n m with rfl | hne
    · rw [State.stream_putStream]
      exact hd
    · rw [State.stream_putStream_of_ne _ _ hne]
      exact h.streams m

theorem blocks (h : s.Bounded) (k : State.SameBlocks s t) : t.Bounded :=
  h.congr k.holding.length_le (by rw [k.schedule]) k.generators k.streams
    fun n => (State.outstanding_congr k.table _).le

theorem freed (h : s.Bounded) {e : TransferId} {r : Transfer} (he : s.transfer e = some r) :
    (s.putTransfer e none).Bounded :=
  h.congr le_rfl le_rfl rfl rfl fun n => by
    have := State.outstanding_freed he (.streamRecord n)
    omega

/-- A transfer that is granted to no stream. -/
theorem granted (h : s.Bounded) {e : TransferId} {r : Transfer} (he : s.transfer e = none)
    (hr : ∀ n, r.requester ≠ .streamRecord n) : (s.putTransfer e (some r)).Bounded :=
  h.congr le_rfl le_rfl rfl rfl fun n => by
    have := State.outstanding_granted r he (.streamRecord n)
    rw [beq_eq_false_iff_ne.2 (hr n)] at this
    exact this.le

end State.Bounded

theorem fireEntries_length (g : GenNo) (p : Position) (older : List EntryId) (l : List ScheduleEntry) :
    (fireEntries g p older l).length = l.length := by
  simpa using congrArg List.length (fireEntries_ids g p older l)

theorem ScheduleUnit.Moves.length_le {x y : ScheduleUnit} (h : x.Moves y) : y.entries.length ≤ x.entries.length := by
  cases h with
  | places id => exact List.length_filter_le _ _
  | fires g p => exact (fireEntries_length g p [] x.entries).le
  | hands claim => exact le_rfl
  | takes claim => exact le_rfl
  | takesLoss claim => exact le_rfl
  | loses claim => exact le_rfl
  | _ => exact (List.length_map _).le

theorem Generator.Moves.bounded {held : Prop} {x y : Generator} (h : x.Moves held y) (hx : x.Bounded) : y.Bounded := by
  cases h with
  | configured source frequency divider lossWindow hoff hd =>
    exact ⟨Nat.one_le_iff_ne_zero.2 hd, fun hr => by simp [hoff] at hr⟩
  | enabled _ => exact ⟨hx.1, fun _ => hx.1⟩
  | disabled _ => exact ⟨hx.1, nofun⟩
  | lost => exact ⟨hx.1, nofun⟩
  | edge he m => exact ⟨hx.1, fun _ => he⟩

theorem EventUnit.recordWrite_length (e : EventUnit) : e.recordWrite.holding.length = e.holding.length := by
  simpa using congrArg List.length e.recordWrite_holding

/-- Requests and grants keep the bounds: each reserves the places it fills. -/
theorem bounded_keptByGrants : State.KeptByGrants State.Bounded where
  prefetch := fun _ n h => h.put (Stream.prefetchGaps_bounded (h.streams n))
  presents := fun s n h hw => by
    simp only [State.wantsRecord, Bool.and_eq_true, beq_iff_eq, decide_eq_true_eq] at hw
    obtain ⟨⟨⟨⟨⟨⟨⟨_, _⟩, hout⟩, hroom⟩, _⟩, _⟩, _⟩, _⟩ := hw
    have hn := h.streams n
    refine h.put ⟨hn.shape, ?_, hn.fifo, hn.places, hn.split⟩
    rw [hout]
    exact hroom
  phase := fun _ _ h => h.congr le_rfl le_rfl rfl rfl fun _ => le_rfl
  issues := fun _ e t h he hr => h.granted he fun n hn => by simp [hn, Requester.stream?] at hr
  posts := fun s h => h.congr s.events.recordWrite_length.le le_rfl rfl rfl fun _ => le_rfl
  reads := fun s e n r h he _ _ => by
    have hg : (s.putTransfer e (some ((s.stream n).formRead n r))).Bounded := h.granted he nofun
    exact hg.put (Stream.recordRead_bounded n r (hg.streams n))
  writes := fun s e n t ring pass offset h he _ ht hitem => by
    have hrequester : t.requester = .streamData n := by
      unfold Stream.formWrite at ht
      split at ht
      · cases ht
      · split at ht
        · cases ht
        · cases ht
          rfl
    have hg : (s.putTransfer e (some t)).Bounded := h.granted he fun m => by
      rw [hrequester]
      exact nofun
    exact hg.put (Stream.recordWrite_bounded ring offset t.length (hg.streams n))
  records := fun s e n h he hpresented => by
    have hout (m : StreamNo) := State.outstanding_granted ((s.stream n).formRecordRead n) he (.streamRecord m)
    have hn := h.streams n
    refine ⟨h.holding, h.entries, h.generators, fun m => ?_⟩
    rcases eq_or_ne n m with rfl | hne
    · rw [State.stream_putStream]
      refine ⟨hn.shape, ?_, hn.fifo, hn.places, hn.split⟩
      have hstaging := hn.staging
      rw [hpresented] at hstaging
      have hone := hout n
      simp only [Stream.formRecordRead, beq_self_eq_true, Bool.toNat_true] at hone
      show (s.stream n).staging.length + (s.putTransfer e _).outstanding _ + 0 ≤ 16
      rw [Stream.formRecordRead, hone]
      exact hstaging
    · rw [State.stream_putStream_of_ne _ _ hne]
      have hnone := hout m
      simp only [Stream.formRecordRead, streamRecord_beq, beq_eq_false_iff_ne.2 hne, Bool.toNat_false, Nat.add_zero] at hnone
      refine (h.streams m).of_le ?_
      show (s.putTransfer e _).outstanding _ ≤ _
      rw [Stream.formRecordRead, hnone]
  pointers := fun _ _ _ _ h => h.congr le_rfl le_rfl rfl rfl fun _ => le_rfl

theorem State.Bounded.putGenerator {s : State} (h : s.Bounded) {g : GenNo} {x : Generator} (hx : x.Bounded) :
    (s.putGenerator g x).Bounded := by
  refine ⟨h.holding, h.entries, fun g' => ?_, h.streams⟩
  rcases eq_or_ne g g' with rfl | hne
  · rw [State.generator_putGenerator]
    exact hx
  · rw [State.generator_putGenerator_of_ne _ _ hne]
    exact h.generators g'

/-- The bounds are kept by every row. -/
theorem bounded_keptByRows : State.KeptByRows State.Bounded where
  accept := fun s e h hfree => by
    refine ⟨?_, h.entries, h.generators, h.streams⟩
    rw [State.placeFree_iff] at hfree
    simpa [State.accept] using hfree
  context := fun _ n _ h _ hd => h.put (hd.bounded (h.streams n))
  close := fun _ n h _ _ => h.put (closedStream_bounded (by have := (h.streams n).staging; omega))
  port := fun _ _ _ h _ => h.congr le_rfl le_rfl rfl rfl fun _ => le_rfl
  discard := fun s n h _ => by
    have hout (m : StreamNo) := (s.discardReads_outstanding n (.streamRecord m)).le
    rw [State.discardReads_eq] at hout ⊢
    exact h.congr le_rfl le_rfl rfl rfl hout
  command := fun _ _ h _ => h.congr le_rfl le_rfl rfl rfl fun _ => le_rfl
  schedule := fun _ _ h hm => h.congr le_rfl hm.length_le rfl rfl fun _ => le_rfl
  frame := fun _ _ h k => h.blocks k.toSameBlocks
  ticks := fun _ n _ h hd => h.put (hd.bounded (h.streams n))
  opens := fun _ n _ _ h _ ho => h.put (openedStream_bounded ho (by have := (h.streams n).staging; omega))
  generator := fun _ g _ h hx => h.putGenerator (hx.bounded (h.generators g))
  generatorTicks := fun _ g h => h.putGenerator ⟨(h.generators g).1, fun _ => (h.generators g).1⟩
  adds := fun s e h hfree _ _ _ _ => by
    refine ⟨h.holding, ?_, h.generators, h.streams⟩
    have hroom : s.schedule.entries.length < 8 := of_decide_eq_true hfree
    simpa [State.addEntry] using hroom
  dues := fun s _ h => ⟨h.holding, (List.length_map (as := s.schedule.entries) _).le.trans h.entries, h.generators, h.streams⟩
  reset := (State.bounded_iff _).1 resetMeetsInvariants.2.1
  blocks := fun _ _ h k => h.blocks k
  finish := fun _ h => bounded_keptByGrants.finish h
  freed := fun _ _ _ h he => h.freed he
  completes := fun s e t n d h he hn hd => by
    refine (h.freed he).put (hd.bounded (Stream.Bounded.of_le (h.streams n) ?_))
    rw [← State.outstanding_freed he]
    refine Nat.add_le_add_left ?_ _
    cases hr : t.requester with
    | streamRecord m =>
      rw [hr] at hn
      cases hn
      simp [Transfer.isRecordRead, hr]
    | _ => simp [Transfer.isRecordRead, hr]
  active := fun _ _ h => h.congr le_rfl le_rfl rfl rfl fun _ => le_rfl

end Sys2Proof.Machine

open Sys2Proof Sys2Proof.Machine

/-- Settles O55, by the changes that the rows and the grants are made of. -/
theorem stepKeepsBounds : Obligations.StepKeepsBounds := by
  intro s t hs h
  rw [State.bounded_iff] at hs ⊢
  exact bounded_keptByRows.step hs h

end

section
/-! The staging lists through every step: ring order, and records at the validity of their take (R28, R31, R34 to R37). -/

namespace Sys2Proof.Machine

/-! ### Ring order -/

/-- Every index of the list is the one before plus 1 in a ring of `size` entries. -/
def ringChain (size : Nat) (l : List Nat) : Prop := List.IsChain (fun i j => (i + 1) % size = j) l

theorem ringChain_iff (size : Nat) (l : List Nat) :
    ringChain size l ↔ (l.zip l.tail).all (fun (i, j) => (i + 1) % size == j) = true := by
  unfold ringChain
  induction l with
  | nil => simp
  | cons a l ih =>
    cases l with
    | nil => simp
    | cons b l =>
      rw [List.isChain_cons_cons, ih]
      simp

theorem ringChain_getElem {size : Nat} {a : Nat} {l : List Nat} (ha : a < size) (h : ringChain size (a :: l)) (i : Nat)
    (hi : i < (a :: l).length) : (a :: l)[i] = (a + i) % size := by
  induction i generalizing a l with
  | zero => exact (Nat.mod_eq_of_lt ha).symm
  | succ i ih =>
    cases l with
    | nil => simp at hi
    | cons b l =>
      obtain ⟨hb, h⟩ := List.isChain_cons_cons.1 h
      have hlt : b < size := by
        rw [← hb]
        exact Nat.mod_lt _ (by omega)
      rw [List.getElem_cons_succ, ih hlt h, ← hb, Nat.mod_add_mod]
      congr 1
      omega

/-- Fewer indices in a row than the ring has entries differ. -/
theorem ringChain_nodup {size : Nat} {l : List Nat} (h : ringChain size l) (hlt : ∀ i ∈ l, i < size)
    (hlen : l.length ≤ size) : l.Nodup := by
  cases l with
  | nil => exact List.nodup_nil
  | cons a l =>
    rw [List.nodup_iff_injective_getElem]
    rintro ⟨i, hi⟩ ⟨j, hj⟩ hij
    have hget := ringChain_getElem (hlt a (by simp)) h
    simp only [hget] at hij
    have hmod : (a + i) ≡ (a + j) [MOD size] := hij
    have := Nat.ModEq.eq_of_lt_of_lt (Nat.ModEq.add_left_cancel' a hmod) (by omega) (by omega)
    exact Fin.ext this

/-! ### One context -/

/-- The record has a frame left to fetch or to assign in its pass, or is exhausted (R36, R37). -/
def StagedRecord.Fits (r : StagedRecord) : Prop :=
  r.pass < r.record.passes ∧ (r.progress < r.record.frameCount.toNat ∨ r.exhausted = true)

/-- The ring indices of a staging list, and the consumer index behind them. -/
def Stream.indices (c : Stream) : List Nat := c.staging.map (fun r => r.ringIndex) ++ [c.consumer]

/-- A context whose staging list stands in ring order, its records at the validity of their take and with frames left or
exhausted. -/
structure Stream.Staged (c : Stream) : Prop where
  size : 16 ≤ c.ringSize
  indices : ∀ i ∈ c.indices, i < c.ringSize
  order : ringChain c.ringSize c.indices
  validity : ∀ r ∈ c.staging, r.invalid = validate c r.record
  fits : ∀ r ∈ c.staging, r.invalid = none → r.Fits

theorem Stream.staged_iff (c : Stream) :
    (c.inRingOrder && c.staging.all c.recordConsistent) = true ↔ c.Staged := by
  simp only [Stream.inRingOrder, Stream.recordConsistent, Bool.and_eq_true, List.all_eq_true, decide_eq_true_eq,
    Bool.or_eq_true, beq_iff_eq, Option.isSome_iff_ne_none]
  constructor
  · rintro ⟨⟨⟨hsize, hindices⟩, horder⟩, hrecords⟩
    exact ⟨hsize, hindices, (ringChain_iff _ _).2 (List.all_eq_true.2 fun x hx => by simpa using horder x hx),
      fun r hr => (hrecords r hr).1, fun r hr hvalid => (hrecords r hr).2.resolve_left (not_not_intro hvalid)⟩
  · intro h
    refine ⟨⟨⟨h.size, h.indices⟩, fun x hx => ?_⟩, fun r hr => ⟨h.validity r hr, ?_⟩⟩
    · simpa using List.all_eq_true.1 ((ringChain_iff _ _).1 h.order) x hx
    · exact or_iff_not_imp_left.2 fun hvalid => h.fits r hr (not_not.1 hvalid)

theorem State.stagingConsistent_iff (s : State) : s.stagingConsistent = true ↔ ∀ n, (s.stream n).Staged := by
  rw [State.stagingConsistent, List.all_eq_true]
  exact ⟨fun h n => (Stream.staged_iff _).1 (h n (mem_configStreams n)), fun h n _ => (Stream.staged_iff _).2 (h n)⟩

theorem validate_congr {c d : Stream} (shape : d.direction = c.direction ∧ d.slots = c.slots ∧ d.width = c.width) :
    validate d = validate c := by
  obtain ⟨hd, hs, hw⟩ := shape
  funext r
  unfold validate Stream.frameSize
  rw [hd, hs, hw]

namespace Stream.Staged

variable {c d : Stream}

/-- Records of one list at one ring index are one record. -/
theorem eq_of_ringIndex (h : c.Staged) (hlen : c.staging.length ≤ 16) {r x : StagedRecord} (hr : r ∈ c.staging)
    (hx : x ∈ c.staging) (heq : x.ringIndex = r.ringIndex) : x = r := by
  have horder : ringChain c.ringSize (c.staging.map (fun r => r.ringIndex)) := (List.isChain_append.1 h.order).1
  have hnodup := ringChain_nodup horder (fun i hi => h.indices i (List.mem_append_left _ hi))
    (by simpa using hlen.trans h.size)
  exact List.inj_on_of_nodup_map hnodup hx hr heq

/-- A change after which the records are records of the list before, with frames left where they had. -/
theorem change (h : c.Staged) (shape : d.direction = c.direction ∧ d.slots = c.slots ∧ d.width = c.width)
    (ring : d.ringSize = c.ringSize ∧ d.consumer = c.consumer)
    (indices : d.staging.map (fun r => r.ringIndex) <:+ c.staging.map (fun r => r.ringIndex))
    (records : ∀ r ∈ d.staging, ∃ x ∈ c.staging, r.record = x.record ∧ r.invalid = x.invalid
      ∧ (x.invalid = none → x.Fits → r.Fits)) : d.Staged := by
  obtain ⟨hsize, hconsumer⟩ := ring
  have hsuffix : d.indices <:+ c.indices := by
    obtain ⟨pre, hpre⟩ := indices
    refine ⟨pre, ?_⟩
    rw [Stream.indices, Stream.indices, ← List.append_assoc, hpre, hconsumer]
  refine ⟨hsize ▸ h.size, fun i hi => hsize ▸ h.indices i (hsuffix.subset hi), ?_, fun r hr => ?_, fun r hr hv => ?_⟩
  · rw [hsize]
    exact h.order.suffix hsuffix
  · obtain ⟨x, hx, hrecord, hinvalid, _⟩ := records r hr
    rw [validate_congr shape, hrecord, hinvalid]
    exact h.validity x hx
  · obtain ⟨x, hx, _, hinvalid, hfits⟩ := records r hr
    rw [hinvalid] at hv
    exact hfits hv (h.fits x hx hv)

/-- A change outside the staging list. -/
theorem sameList (h : c.Staged) (shape : d.direction = c.direction ∧ d.slots = c.slots ∧ d.width = c.width)
    (ring : d.ringSize = c.ringSize ∧ d.consumer = c.consumer) (staging : d.staging = c.staging) : d.Staged :=
  h.change shape ring (by rw [staging]) fun r hr => ⟨r, staging ▸ hr, rfl, rfl, fun _ => id⟩

/-- A change of the records at one ring index. -/
theorem modify (h : c.Staged) (shape : d.direction = c.direction ∧ d.slots = c.slots ∧ d.width = c.width)
    (ring : d.ringSize = c.ringSize ∧ d.consumer = c.consumer) (index : Nat) (f : StagedRecord → StagedRecord)
    (staging : d.staging = (c.modifyRecord index f).staging)
    (hf : ∀ r, (f r).ringIndex = r.ringIndex ∧ (f r).record = r.record ∧ (f r).invalid = r.invalid)
    (fits : ∀ r ∈ c.staging, r.ringIndex = index → r.invalid = none → r.Fits → (f r).Fits) : d.Staged := by
  refine h.change shape ring ?_ fun r hr => ?_
  · rw [staging, Stream.modifyRecord, List.map_map, List.map_congr_left]
    · intro r _
      simp only [Function.comp_apply]
      split
      · exact (hf r).1
      · rfl
  · rw [staging] at hr
    obtain ⟨x, hx, rfl⟩ := List.mem_map.1 hr
    refine ⟨x, hx, ?_⟩
    split
    · rename_i hi
      exact ⟨(hf x).2.1, (hf x).2.2, fits x hx (by simpa using hi)⟩
    · exact ⟨rfl, rfl, fun _ => id⟩

end Stream.Staged

/-- The first open record is a valid record of the list with a frame left. -/
theorem Stream.current_fits {c : Stream} {r : StagedRecord} (h : c.Staged) (hr : c.current = some r) :
    r ∈ c.staging ∧ r.invalid = none ∧ r.pass < r.record.passes ∧ r.progress < r.record.frameCount.toNat := by
  have hopen := List.find?_some hr
  have hmem := List.mem_of_find?_eq_some hr
  simp only [StagedRecord.isOpen, Bool.and_eq_true, Option.isNone_iff_eq_none, Bool.not_eq_true'] at hopen
  obtain ⟨hvalid, hopen⟩ := hopen
  obtain ⟨hpass, hprogress⟩ := h.fits r hmem hvalid
  exact ⟨hmem, hvalid, hpass, hprogress.resolve_right (by simp [hopen])⟩

theorem StagedRecord.advance_fields (r : StagedRecord) (k : Nat) :
    (r.advance k).ringIndex = r.ringIndex ∧ (r.advance k).record = r.record ∧ (r.advance k).invalid = r.invalid := by
  unfold StagedRecord.advance
  split <;> exact ⟨rfl, rfl, rfl⟩

/-- A record that advances within its pass keeps a frame left, or is exhausted. -/
theorem StagedRecord.advance_fits {r : StagedRecord} {k : Nat} (hpass : r.pass < r.record.passes)
    (hprogress : r.progress < r.record.frameCount.toNat) (hk : r.progress + k ≤ r.record.frameCount.toNat) :
    (r.advance k).Fits := by
  unfold StagedRecord.advance
  split
  · rename_i h
    simp only [Bool.and_eq_true, beq_iff_eq, decide_eq_true_eq] at h
    exact ⟨h.2, .inl (Nat.zero_lt_of_lt hprogress)⟩
  · rename_i h
    simp only [Bool.and_eq_true, beq_iff_eq, decide_eq_true_eq, not_and] at h
    refine ⟨hpass, ?_⟩
    by_cases hfull : r.progress + k = r.record.frameCount.toNat
    · refine .inr ?_
      simp only [StagedRecord.exhausted, Bool.and_eq_true, beq_iff_eq]
      exact ⟨hfull, Nat.le_antisymm hpass (Nat.not_lt.1 (h hfull))⟩
    · exact .inl (Nat.lt_of_le_of_ne hk hfull)

/-- The advance of the first open record keeps the list in order. -/
theorem Stream.Staged.advance {c d : Stream} (h : c.Staged) (hlen : c.staging.length ≤ 16) {r : StagedRecord}
    (hr : c.current = some r) (k : StagedRecord → Nat) (hk : r.progress + k r ≤ r.record.frameCount.toNat)
    (shape : d.direction = c.direction ∧ d.slots = c.slots ∧ d.width = c.width)
    (ring : d.ringSize = c.ringSize ∧ d.consumer = c.consumer) (o : Nat → Nat)
    (staging : d.staging = (c.modifyRecord r.ringIndex (fun r => { r.advance (k r) with
      outstanding := o (r.advance (k r)).outstanding })).staging) : d.Staged := by
  obtain ⟨hmem, _, hpass, hprogress⟩ := Stream.current_fits h hr
  refine h.modify shape ring r.ringIndex _ staging (fun r => r.advance_fields (k r)) fun x hx hi _ _ => ?_
  rw [h.eq_of_ringIndex hlen hmem hx hi]
  exact StagedRecord.advance_fits hpass hprogress hk

theorem mem_unretired {c d : Stream} (h : unretired d.staging <:+ unretired c.staging) {r : StagedRecord}
    (hr : r ∈ d.staging) : ∃ x ∈ c.staging, { x with retired := none } = { r with retired := none } :=
  List.mem_map.1 (h.subset (List.mem_map_of_mem hr))

theorem Stream.Carries.staged {c d : Stream} (h : c.Carries d) (hc : c.Staged) : d.Staged := by
  refine hc.change ⟨by rw [h.body], by rw [h.body], by rw [h.body]⟩ ⟨by rw [h.body], by rw [h.body]⟩ ?_ fun r hr => ?_
  · have := h.staging.map (fun r => r.ringIndex)
    simp only [unretired, List.map_map] at this
    exact this
  · obtain ⟨x, hx, heq⟩ := mem_unretired h.staging hr
    simp only [StagedRecord.mk.injEq] at heq
    obtain ⟨hrecord, _, hinvalid, hpass, hprogress, _⟩ := heq
    refine ⟨x, hx, hrecord.symm, hinvalid.symm, fun _ hfits => ?_⟩
    unfold StagedRecord.Fits StagedRecord.exhausted at hfits ⊢
    rwa [← hrecord, ← hpass, ← hprogress]

/-- A valid capture record plays once (R26, R28). -/
theorem passes_of_capture {c : Stream} {r : StreamRecord} (hd : c.direction = .capture) (h : validate c r = none) :
    r.passes = 1 := by
  unfold StreamRecord.passes
  split
  · rename_i hdata
    have hrepeat : r.repeatCount = 0 := by
      unfold validate at h
      rw [hdata, hd] at h
      split_ifs at h with _ _ _ hrepeat
      simpa using hrepeat
    rw [hrepeat]
    rfl
  · rfl

theorem Stream.Ticks.staged {c d : Stream} (h : c.Ticks d) (hlen : c.staging.length ≤ 16) (hc : c.Staged) : d.Staged := by
  cases h with
  | begins t _ => exact hc.sameList ⟨rfl, rfl, rfl⟩ ⟨rfl, rfl⟩ rfl
  | starves => exact hc.sameList ⟨rfl, rfl, rfl⟩ ⟨rfl, rfl⟩ rfl
  | tails => exact hc.sameList ⟨rfl, rfl, rfl⟩ ⟨rfl, rfl⟩ rfl
  | recovers => exact hc.sameList ⟨rfl, rfl, rfl⟩ ⟨rfl, rfl⟩ rfl
  | passes t p rest _ =>
    exact hc.modify ⟨rfl, rfl, rfl⟩ ⟨rfl, rfl⟩ p.ring (fun r => r.passFrame t) rfl (fun _ => ⟨rfl, rfl, rfl⟩)
      fun _ _ _ _ hfits => hfits
  | assigns t r frame hd hr _ _ =>
    obtain ⟨hmem, hvalid, hpass, hprogress⟩ := Stream.current_fits hc hr
    refine hc.modify ⟨rfl, rfl, rfl⟩ ⟨rfl, rfl⟩ r.ringIndex (fun r => r.assignFrame t) rfl (fun _ => ⟨rfl, rfl, rfl⟩)
      fun x hx hi _ _ => ?_
    rw [hc.eq_of_ringIndex hlen hmem hx hi]
    have hone : r.record.passes = 1 := passes_of_capture hd ((hc.validity r hmem).symm.trans hvalid)
    refine ⟨hpass, ?_⟩
    by_cases hfull : r.progress + 1 = r.record.frameCount.toNat
    · refine .inr ?_
      simp only [StagedRecord.exhausted, StagedRecord.assignFrame, Bool.and_eq_true, beq_iff_eq]
      exact ⟨hfull, (Nat.le_antisymm hpass (hone.trans_le (Nat.succ_pos _)))⟩
    · exact .inl (Nat.lt_of_le_of_ne hprogress hfull)

theorem closedStream_staged : closedStream.Staged := (Stream.staged_iff _).1 (by decide)

theorem openedStream_staged {p : OpenParams} {c : Stream} (h : openedStream p = some c) : c.Staged := by
  unfold openedStream at h
  split at h
  · dsimp only at h
    split at h
    · rename_i hrange
      obtain ⟨_, _, _, _, _, _, hsize, _, hstart, _⟩ := hrange
      cases h
      refine ⟨hsize, fun i hi => ?_, List.isChain_singleton _, nofun, nofun⟩
      rw [List.mem_singleton.1 hi]
      exact hstart
    · cases h
  · cases h

/-- A record that is taken is staged behind the list, at the validity of its take (R28, R31). -/
theorem Stream.takeRecord_staged {c : Stream} (r : StreamRecord) (h : c.Staged) : (c.takeRecord r).Staged := by
  have hsize := h.size
  have hindices : (c.takeRecord r).indices = c.indices ++ [(c.consumer + 1) % c.ringSize] := by
    simp [Stream.indices, Stream.takeRecord, stageRecord]
  have hnext : (c.consumer + 1) % c.ringSize < c.ringSize := Nat.mod_lt _ (by omega)
  refine ⟨hsize, fun i hi => ?_, ?_, fun x hx => ?_, fun x hx hvalid => ?_⟩
  · rw [hindices] at hi
    rcases List.mem_append.1 hi with hi | hi
    · exact h.indices i hi
    · rw [List.mem_singleton.1 hi]
      exact hnext
  · rw [hindices]
    refine List.isChain_append.2 ⟨h.order, List.isChain_singleton _, ?_⟩
    intro i hi j hj
    have hlast : c.consumer = i := by simpa [Stream.indices] using hi
    have hfirst : (c.consumer + 1) % c.ringSize = j := by simpa using hj
    rw [← hlast]
    exact hfirst
  · rcases List.mem_append.1 hx with hx | hx
    · exact h.validity x hx
    · rw [List.mem_singleton.1 hx]
      rfl
  · rcases List.mem_append.1 hx with hx | hx
    · exact h.fits x hx hvalid
    · rw [List.mem_singleton.1 hx] at hvalid ⊢
      have hcount : r.frameCount ≠ 0 := by
        rintro h0
        simp [stageRecord, validate, h0] at hvalid
        split at hvalid
        · cases hvalid
        · split at hvalid <;> cases hvalid
      have hpasses : 0 < r.passes := by
        unfold StreamRecord.passes
        split <;> omega
      refine ⟨hpasses, .inl ?_⟩
      exact Nat.pos_of_ne_zero fun h0 => hcount (BitVec.eq_of_toNat_eq h0)

theorem Stream.Completes.staged {t : Transfer} {c d : Stream} (h : c.Completes t d) (hc : c.Staged) : d.Staged := by
  cases h with
  | read data _ =>
    unfold Stream.completeRead
    split
    · dsimp only
      split <;>
      exact hc.modify ⟨rfl, rfl, rfl⟩ ⟨rfl, rfl⟩ _ (fun r => { r with outstanding := r.outstanding - 1 }) rfl
        (fun _ => ⟨rfl, rfl, rfl⟩) fun _ _ _ _ hfits => hfits
    · exact hc
  | failedRead _ =>
    unfold Stream.failRead
    split
    · exact hc.modify ⟨rfl, rfl, rfl⟩ ⟨rfl, rfl⟩ _ _ rfl (fun _ => ⟨rfl, rfl, rfl⟩) fun _ _ _ _ hfits => hfits
    · exact hc
  | write ok _ =>
    unfold Stream.finishWrite
    split
    · exact hc.modify ⟨rfl, rfl, rfl⟩ ⟨rfl, rfl⟩ _ _ rfl (fun _ => ⟨rfl, rfl, rfl⟩) fun _ _ _ _ hfits => hfits
    · exact hc
  | arrives r _ =>
    unfold Stream.recordArrives
    split
    · exact Stream.takeRecord_staged r hc
    · exact hc
  | nothing => exact hc

/-! ### Prefetch and grants -/

theorem placeGaps_staged {c : Stream} (j : Nat) (hlen : c.staging.length ≤ 16) (h : c.Staged) :
    (placeGaps j c).Staged := by
  induction j generalizing c with
  | zero => exact h
  | succ j ih =>
    unfold placeGaps
    split
    · exact h
    · rename_i r hr
      dsimp only
      split
      · refine ih ?_ (h.advance hlen hr (fun _ => _) ?_ ⟨rfl, rfl, rfl⟩ ⟨rfl, rfl⟩ id rfl)
        · simpa [Stream.modifyRecord] using hlen
        · have := (Stream.current_fits h hr).2.2.2
          omega
      · exact h

theorem Stream.prefetchGaps_staged {c : Stream} (hlen : c.staging.length ≤ 16) (h : c.Staged) : c.prefetchGaps.Staged := by
  unfold Stream.prefetchGaps
  split
  · exact placeGaps_staged _ hlen h
  · exact h

/-- A read stops at the end of its pass (R52). -/
theorem Stream.formRead_stop {c : Stream} {r : StagedRecord} (n : StreamNo) (hsplit : c.fetchSplit < c.frameSize)
    (hr : r.progress < r.record.frameCount.toNat) :
    r.progress * c.frameSize + c.fetchSplit + (c.formRead n r).length ≤ r.record.frameCount.toNat * c.frameSize := by
  have hlength : (c.formRead n r).length
      ≤ r.record.frameCount.toNat * c.frameSize - (r.progress * c.frameSize + c.fetchSplit) :=
    ((transferLength_le _ _ _ _ _).trans (min_le_left _ _)).trans (min_le_right _ _)
  have hoffset : (r.progress + 1) * c.frameSize ≤ r.record.frameCount.toNat * c.frameSize := Nat.mul_le_mul_right _ hr
  rw [Nat.add_mul, Nat.one_mul] at hoffset
  omega

theorem Stream.recordRead_staged {c : Stream} {r : StagedRecord} {k : Nat} (n : StreamNo) (hb : c.Bounded k)
    (h : c.Staged) (hr : c.current = some r) : (c.recordRead r (c.formRead n r).length).Staged := by
  have hpos := Stream.frameSize_pos hb.shape
  have hprogress := (Stream.current_fits h hr).2.2.2
  have hstop := Stream.formRead_stop n hb.split hprogress
  have hlen : c.staging.length ≤ 16 := by
    have := hb.staging
    omega
  refine h.advance hlen hr
    (fun x => (r.progress * c.frameSize + c.fetchSplit + (c.formRead n r).length) / c.frameSize - x.progress) ?_
    ⟨rfl, rfl, rfl⟩ ⟨rfl, rfl⟩ (fun x => x + 1) ?_
  · have hle : (r.progress * c.frameSize + c.fetchSplit + (c.formRead n r).length) / c.frameSize
        ≤ r.record.frameCount.toNat := Nat.div_le_of_le_mul (hstop.trans_eq (Nat.mul_comm _ _))
    omega
  · simp only [Stream.recordRead, Stream.modifyRecord, StagedRecord.outstanding_advance]

/-! ### The state -/

/-- Bounds and ring order together, as the grants need them. -/
def State.StagedWithin (s : State) : Prop := s.Bounded ∧ ∀ n, (s.stream n).Staged

namespace State.StagedWithin

variable {s t : State}

theorem length_le (h : s.StagedWithin) (n : StreamNo) : (s.stream n).staging.length ≤ 16 := by
  have := (h.1.streams n).staging
  omega

theorem congr (h : s.StagedWithin) (bounded : t.Bounded) (streams : t.streams = s.streams) : t.StagedWithin :=
  ⟨bounded, fun n => by
    rw [State.stream, streams]
    exact h.2 n⟩

theorem put (h : ∀ m, (s.stream m).Staged) {n : StreamNo} {d : Stream} (bounded : (s.putStream n d).Bounded)
    (hd : d.Staged) : (s.putStream n d).StagedWithin := by
  refine ⟨bounded, fun m => ?_⟩
  rcases eq_or_ne n m with rfl | hne
  · rw [State.stream_putStream]
    exact hd
  · rw [State.stream_putStream_of_ne _ _ hne]
    exact h m

end State.StagedWithin

theorem staged_keptByGrants : State.KeptByGrants State.StagedWithin where
  prefetch := fun s n h => .put h.2 (bounded_keptByGrants.prefetch s n h.1) (Stream.prefetchGaps_staged (h.length_le n) (h.2 n))
  presents := fun s n h hw => .put h.2 (bounded_keptByGrants.presents s n h.1 hw)
    ((h.2 n).sameList ⟨rfl, rfl, rfl⟩ ⟨rfl, rfl⟩ rfl)
  phase := fun s p h => h.congr (bounded_keptByGrants.phase s p h.1) rfl
  issues := fun s e t h he hr => h.congr (bounded_keptByGrants.issues s e t h.1 he hr) rfl
  posts := fun s h => h.congr (bounded_keptByGrants.posts s h.1) rfl
  reads := fun s e n r h he hw hr => .put (s := s.putTransfer e _) h.2 (bounded_keptByGrants.reads s e n r h.1 he hw hr)
    (Stream.recordRead_staged n (h.1.streams n) (h.2 n) hr)
  writes := fun s e n t ring pass offset h he hw ht hitem =>
    .put (s := s.putTransfer e _) h.2 (bounded_keptByGrants.writes s e n t ring pass offset h.1 he hw ht hitem)
      ((h.2 n).modify ⟨rfl, rfl, rfl⟩ ⟨rfl, rfl⟩ ring (fun r => { r with outstanding := r.outstanding + 1 }) rfl (fun _ => ⟨rfl, rfl, rfl⟩) fun _ _ _ _ hfits => hfits)
  records := fun s e n h he hp => .put (s := s.putTransfer e _) h.2 (bounded_keptByGrants.records s e n h.1 he hp)
    ((h.2 n).sameList ⟨rfl, rfl, rfl⟩ ⟨rfl, rfl⟩ rfl)
  pointers := fun s u d r h => h.congr (bounded_keptByGrants.pointers s u d r h.1) rfl

/-- Bounds and ring order are kept by every row. -/
theorem staged_keptByRows : State.KeptByRows State.StagedWithin where
  accept := fun s e h hf => h.congr (bounded_keptByRows.accept s e h.1 hf) rfl
  context := fun s n d h ht hd => .put h.2 (bounded_keptByRows.context s n d h.1 ht hd) (hd.staged (h.2 n))
  close := fun s n h ht he => .put h.2 (bounded_keptByRows.close s n h.1 ht he) closedStream_staged
  port := fun s n p h ht => h.congr (bounded_keptByRows.port s n p h.1 ht) rfl
  discard := fun s n h ht => h.congr (bounded_keptByRows.discard s n h.1 ht) (State.discardReads_streams s n)
  command := fun s c h hc => h.congr (bounded_keptByRows.command s c h.1 hc) rfl
  schedule := fun s x h hx => h.congr (bounded_keptByRows.schedule s x h.1 hx) rfl
  frame := fun s t h k => h.congr (bounded_keptByRows.frame s t h.1 k) k.streams
  ticks := fun s n d h hd => .put h.2 (bounded_keptByRows.ticks s n d h.1 hd) (hd.staged (h.length_le n) (h.2 n))
  opens := fun s n p c h hc ho => .put h.2 (bounded_keptByRows.opens s n p c h.1 hc ho) (openedStream_staged ho)
  generator := fun s g x h hx => h.congr (bounded_keptByRows.generator s g x h.1 hx) rfl
  generatorTicks := fun s g h => h.congr (bounded_keptByRows.generatorTicks s g h.1) rfl
  adds := fun s e h hf hid hw ha hc => h.congr (bounded_keptByRows.adds s e h.1 hf hid hw ha hc) rfl
  dues := fun s l h => h.congr (bounded_keptByRows.dues s l h.1) rfl
  reset := ⟨bounded_keptByRows.reset, (State.stagingConsistent_iff _).1 (by
    obtain ⟨_, _, _, _, _, _, hstaging, _⟩ := resetMeetsInvariants
    exact hstaging)⟩
  blocks := fun s t h k => h.congr (bounded_keptByRows.blocks s t h.1 k) k.streams
  finish := fun _ h => staged_keptByGrants.finish h
  freed := fun s e t h he => h.congr (bounded_keptByRows.freed s e t h.1 he) rfl
  completes := fun s e t n d h he hn hd =>
    .put (s := s.putTransfer e none) h.2 (bounded_keptByRows.completes s e t n d h.1 he hn hd) (hd.staged (h.2 n))
  active := fun s b h => h.congr (bounded_keptByRows.active s b h.1) rfl

end Sys2Proof.Machine

open Sys2Proof Sys2Proof.Machine

/-- Settles O60, by the changes that the rows and the grants are made of, with the bounds that keep ring indices apart. -/
theorem stepKeepsStaging : Obligations.StepKeepsStaging := by
  intro s t hb hs h
  rw [State.stagingConsistent_iff] at hs ⊢
  exact (staged_keptByRows.step ⟨(State.bounded_iff _).1 hb, hs⟩ h).2

end

section
/-! One step of an examination, exactly (sections 1.6 and 2.6): the case of each report, and what it leaves. -/

namespace Sys2Proof.Machine

/-! ### Who waits -/

/-- The four kinds of producers. -/
theorem producer_cases {P : Producer → Prop} (command : P commandProducer) (schedule : P scheduleProducer)
    (timebase : P timebaseProducer) (stream : ∀ n, P (streamProducer n)) (p : Producer) : P p :=
  match p with
  | ⟨0, _⟩ => command
  | ⟨1, _⟩ => schedule
  | ⟨2, _⟩ => timebase
  | ⟨k + 3, h⟩ => stream ⟨k, by omega⟩

theorem State.waits_commandProducer (s : State) : s.waits commandProducer = s.command.slot.isSome := rfl

theorem State.waits_scheduleProducer (s : State) : s.waits scheduleProducer = s.offerableClosing.isSome := rfl

theorem State.waits_timebaseProducer (s : State) : s.waits timebaseProducer = !s.timebase.lostReports.isEmpty := rfl

theorem State.waits_streamProducer (s : State) (m : StreamNo) : s.waits (streamProducer m) = (s.stream m).reportWaits := by
  have hm : Fin.ofNat 8 m.val = m := Fin.ext (Nat.mod_eq_of_lt m.isLt)
  show (s.stream (Fin.ofNat 8 m.val)).reportWaits = _
  rw [hm]

theorem State.offerableClosing_congr {s t : State} (entries : t.schedule.entries = s.schedule.entries)
    (offering : t.schedule.offering = s.schedule.offering) : t.offerableClosing = s.offerableClosing := by
  simp only [State.offerableClosing, State.entry?, entries, offering]

/-- A producer other than `p` waits as it did. -/
theorem State.roomFor_congr {s t : State} {p : Producer} (holding : t.events.holding.length = s.events.holding.length)
    (waits : ∀ q, q ≠ p → t.waits q = s.waits q) : t.roomFor p = s.roomFor p := by
  rw [Bool.eq_iff_iff, State.roomFor_iff, State.roomFor_iff, State.placeFree, State.placeFree, holding]
  exact and_congr_right fun _ => forall₂_congr fun q hq => by rw [waits q hq]

/-- The context of a stream does not change who else waits. -/
theorem State.waits_putStream {s : State} {n : StreamNo} {d : Stream} {p : Producer} (hp : p ≠ streamProducer n) :
    (s.putStream n d).waits p = s.waits p := by
  revert hp
  refine producer_cases (P := fun p => p ≠ streamProducer n → (s.putStream n d).waits p = s.waits p) ?_ ?_ ?_ ?_ p
  · exact fun _ => rfl
  · exact fun _ => rfl
  · exact fun _ => rfl
  · intro m hm
    have hne : n ≠ m := fun hnm => hm (congrArg streamProducer hnm.symm)
    rw [State.waits_streamProducer, State.waits_streamProducer, State.stream_putStream_of_ne s _ hne]

theorem State.roomFor_putStream (s : State) (n : StreamNo) (c : Stream) :
    (s.putStream n c).roomFor (streamProducer n) = s.roomFor (streamProducer n) :=
  State.roomFor_congr rfl fun _ hq => State.waits_putStream hq

theorem State.roomFor_handRemoval (s : State) (n : StreamNo) (r : ClearReason) (p : Producer) :
    (s.handRemoval n r).roomFor p = s.roomFor p := by
  unfold State.handRemoval
  split <;> rfl

/-! ### Producing a report -/

/-- A report of stream `n` that is not gated is accepted when there is room (R41, R137). -/
def State.accepts (s : State) (n : StreamNo) (c : Stream) (drainRun : Bool) : Bool :=
  (!drainRun || c.drainAnswered) && s.roomFor (streamProducer n)

theorem State.produce_accepted {s : State} {n : StreamNo} {c : Stream} {drainRun : Bool} (e : Event)
    (h : s.accepts n c drainRun = true) :
    (s.putStream n c).produce n e drainRun =
      let t := (s.accept e).putStream n (c.placed e)
      if c.arrivesWith e then t.streamArrived n else t := by
  rw [State.produce_eq, State.roomFor_putStream]
  exact if_pos h

theorem State.produce_waits {s : State} {n : StreamNo} {c : Stream} {drainRun : Bool} (e : Event)
    (h : s.accepts n c drainRun = false) :
    (s.putStream n c).produce n e drainRun = s.putStream n { c with pendingReport := some ⟨e, drainRun⟩ } := by
  rw [State.produce_eq, State.roomFor_putStream]
  exact if_neg (Bool.eq_false_iff.1 h)

/-- What a produced report leaves: the context and the held events. -/
theorem State.produce_leaves (s : State) (n : StreamNo) (c : Stream) (e : Event) (drainRun : Bool) :
    let u := (s.putStream n c).produce n e drainRun
    u.stream n = (if s.accepts n c drainRun then c.placed e else { c with pendingReport := some ⟨e, drainRun⟩ })
      ∧ u.heldEvents = s.heldEvents ++ (if s.accepts n c drainRun then [e] else [])
      ∧ u.schedule = s.schedule
      ∧ (s.accepts n c drainRun = true → c.arrivesWith e = true →
        u.command.streamWait = s.command.streamWait &&& ~~~streamBit n) := by
  dsimp only
  cases h : s.accepts n c drainRun with
  | false =>
    rw [State.produce_waits e h]
    exact ⟨State.stream_putStream _ _ _, (List.append_nil _).symm, rfl, nofun⟩
  | true =>
    rw [State.produce_accepted e h]
    dsimp only
    split
    · refine ⟨State.stream_putStream _ _ _, ?_, rfl, fun _ _ => rfl⟩
      exact List.map_append
    · rename_i harrives
      refine ⟨State.stream_putStream _ _ _, ?_, rfl, fun _ k => absurd k harrives⟩
      exact List.map_append

/-! ### The cases of a step -/

section
variable {s : State} {n : StreamNo}

theorem State.settleStep_of_pending (h : (s.stream n).pendingReport ≠ none) : s.settleStep n = none := by
  simp [State.settleStep, Option.isSome_iff_ne_none, h]

theorem State.settleStep_fault {cause : FaultCause} {p : Position} (hp : (s.stream n).pendingReport = none)
    (h : (s.stream n).faultOwed = some (cause, p)) :
    s.settleStep n = some ((s.putStream n { s.stream n with faultOwed := none }).produce n (.streamFault n cause p) false) := by
  simp [State.settleStep, hp, h]

theorem State.settleStep_retire {r : StagedRecord} {st : RetiredStatus} (hp : (s.stream n).pendingReport = none)
    (hf : (s.stream n).faultOwed = none) (h : s.retirableHead n = some (r, st)) :
    s.settleStep n = some (s.retireHead n r st) := by
  simp [State.settleStep, hp, hf, h]

theorem State.settleStep_stopDone {o : OwedStop} (hp : (s.stream n).pendingReport = none)
    (hf : (s.stream n).faultOwed = none) (hr : s.retirableHead n = none) (h : (s.stream n).stopOwed = some o) :
    s.settleStep n = some ((s.putStream n { s.stream n with stopOwed := none }).produce n
      (.streamStopDone n (s.stream n).generator o.reason (s.stream n).finalPosition) o.drainRun) := by
  simp [State.settleStep, hp, hf, hr, h]

theorem State.settleStep_idle (hp : (s.stream n).pendingReport = none)
    (hf : (s.stream n).faultOwed = none) (hr : s.retirableHead n = none) (hs : (s.stream n).stopOwed = none) :
    s.settleStep n =
      if (s.stream n).drainComplete then some (s.putStream n { s.stream n with stopOwed := some ⟨.drain, true⟩ })
      else if s.stoppingEnds n then some (s.endStopping n)
      else none := by
  simp [State.settleStep, hp, hf, hr, hs]

/-- Every step of an examination is one of the six. -/
theorem State.settleStep_cases {P : State → Prop} {t : State} (ht : s.settleStep n = some t)
    (fault : ∀ cause p, (s.stream n).faultOwed = some (cause, p) →
      P ((s.putStream n { s.stream n with faultOwed := none }).produce n (.streamFault n cause p) false))
    (retire : ∀ r st, s.retirableHead n = some (r, st) → P (s.retireHead n r st))
    (stopDone : ∀ o, (s.stream n).stopOwed = some o →
      P ((s.putStream n { s.stream n with stopOwed := none }).produce n
        (.streamStopDone n (s.stream n).generator o.reason (s.stream n).finalPosition) o.drainRun))
    (drain : (s.stream n).stopOwed = none → (s.stream n).drainComplete = true →
      P (s.putStream n { s.stream n with stopOwed := some ⟨.drain, true⟩ }))
    (ends : (s.stream n).pendingReport = none ∧ (s.stream n).faultOwed = none ∧ (s.stream n).stopOwed = none →
      s.stoppingEnds n = true → P (s.endStopping n)) : P t := by
  by_cases hp : (s.stream n).pendingReport = none
  · cases hf : (s.stream n).faultOwed with
    | some f =>
      rw [State.settleStep_fault hp hf] at ht
      cases ht
      exact fault _ _ hf
    | none =>
      cases hr : s.retirableHead n with
      | some r =>
        rw [State.settleStep_retire hp hf hr] at ht
        cases ht
        exact retire _ _ hr
      | none =>
        cases hs : (s.stream n).stopOwed with
        | some o =>
          rw [State.settleStep_stopDone hp hf hr hs] at ht
          cases ht
          exact stopDone _ hs
        | none =>
          rw [State.settleStep_idle hp hf hr hs] at ht
          split_ifs at ht with hd he
          · cases ht
            exact drain hs hd
          · cases ht
            exact ends ⟨hp, hf, hs⟩ he
  · rw [State.settleStep_of_pending hp] at ht
    cases ht

/-- A stream is settled exactly when its report waits or it has none of the six to do. -/
theorem State.isSettled_iff : s.isSettled n = true ↔ (s.stream n).pendingReport ≠ none
    ∨ (s.stream n).faultOwed = none ∧ s.retirableHead n = none ∧ (s.stream n).stopOwed = none
      ∧ (s.stream n).drainComplete = false ∧ s.stoppingEnds n = false := by
  rw [State.isSettled, Option.isNone_iff_eq_none]
  by_cases hp : (s.stream n).pendingReport = none
  · simp only [hp, ne_eq, not_true_eq_false, false_or]
    cases hf : (s.stream n).faultOwed with
    | some f => simp [State.settleStep_fault hp hf]
    | none =>
      cases hr : s.retirableHead n with
      | some r => simp [State.settleStep_retire hp hf hr]
      | none =>
        cases hs : (s.stream n).stopOwed with
        | some o => simp [State.settleStep_stopDone hp hf hr hs]
        | none =>
          rw [State.settleStep_idle hp hf hr hs]
          cases (s.stream n).drainComplete <;> cases s.stoppingEnds n <;> simp
  · simp [State.settleStep_of_pending hp, hp]

end

/-! ### The end of STOPPING -/

theorem State.endStopping_closed {s : State} {n : StreamNo} (h : (s.stream n).destination = some .closed) :
    s.endStopping n = s.enterClosed n := by
  simp [State.endStopping, h]

theorem State.endStopping_entry {s : State} {n : StreamNo} (hd : (s.stream n).destination ≠ some .closed)
    (h : (s.stream n).stopOrigin = some .entry) :
    s.endStopping n = match (s.stream n).answerTo with
      | some id => (s.enterIdle n).answerEntry id n
      | none => s.enterIdle n := by
  unfold State.endStopping
  dsimp only
  split
  · rename_i hc
    exact absurd hc hd
  · rw [h] <;> rfl

theorem State.endStopping_reported {s : State} {n : StreamNo} (hd : (s.stream n).destination ≠ some .closed)
    (ho : (s.stream n).stopOrigin ≠ some .entry) (h : (s.stream n).stopReported = true) :
    s.endStopping n = s.enterIdle n := by
  unfold State.endStopping
  dsimp only
  split
  · rename_i hc
    exact absurd hc hd
  · split
    · rename_i hc
      exact absurd hc ho
    · rw [if_pos h]

/-- The final position of a stop that ends STOPPING with a report of its own (R18, R203). -/
def Stream.stoppedAt (c : Stream) : Position := if c.stoppedFromFault && !c.faultInRun then 0 else c.finalPosition

theorem State.endStopping_reports {s : State} {n : StreamNo} (hd : (s.stream n).destination ≠ some .closed)
    (ho : (s.stream n).stopOrigin ≠ some .entry) (h : (s.stream n).stopReported = false) :
    s.endStopping n = (s.putStream n (s.stream n)).produce n
      (.streamStopDone n (s.stream n).generator .command (s.stream n).stoppedAt) false := by
  rw [State.putStream_stream]
  unfold State.endStopping
  dsimp only
  split
  · rename_i hc
    exact absurd hc hd
  · split
    · rename_i hc
      exact absurd hc ho
    · rw [if_neg (by simp [h])]
      rfl

theorem streamWait_cleared (w : StreamSet) (n : StreamNo) : (w &&& ~~~streamBit n).getLsbD n.val = false := by
  have hbit : (streamBit n).getLsbD n.val = true := by
    fin_cases n <;> decide
  rw [BitVec.getLsbD_and, BitVec.getLsbD_not, hbit]
  simp

end Sys2Proof.Machine
end

section
/-! What closing events the Schedule Unit places, and the steps of an examination in the terms of section 2.6. -/

namespace Sys2Proof.Machine

/-! ### Closing events -/

theorem Event.closesEntry_not_stopDone {id : EntryId} {e : Event} (h : e.closesEntry id = true) : e.isStopDone = false := by
  cases e <;> simp_all [Event.closesEntry, Event.isStopDone]

theorem State.accept_heldEvents (s : State) (e : Event) : (s.accept e).heldEvents = s.heldEvents ++ [e] := List.map_append

/-- The Schedule Unit's operations only add to the held events. -/
theorem heldEvents_keptBySchedule (s : State) : State.KeptBySchedule (fun t => s.heldEvents <+: t.heldEvents) where
  places := fun t _ ev h _ _ => h.trans ⟨[ev], (t.accept_heldEvents ev).symm⟩
  schedule := fun _ _ h _ => h

/-- The events that `t` holds beyond those of `s` close entries of a consistent table. -/
structure State.ClosesFrom (s t : State) : Prop where
  entries : entriesConsistent t.schedule.entries
  closing : ∃ l, t.heldEvents = s.heldEvents ++ l ∧ ∀ ev ∈ l, ∃ id, Event.closesEntry id ev = true

theorem closesFrom_keptBySchedule (s : State) : State.KeptBySchedule (State.ClosesFrom s) where
  places := fun t e ev h _ ho => by
    obtain ⟨hmem, hclosing⟩ := State.offerableClosing_mem ho
    obtain ⟨l, hl, hev⟩ := h.closing
    refine ⟨h.entries.filter _, l ++ [ev], ?_, fun x hx => ?_⟩
    · exact (t.accept_heldEvents ev).trans (by rw [hl, List.append_assoc])
    · rcases List.mem_append.1 hx with hx | hx
      · exact hev x hx
      · rw [List.mem_singleton.1 hx]
        exact ⟨e.id, (h.entries.2 e hmem).closing ev hclosing⟩
  schedule := fun _ _ h hm => ⟨hm.consistent h.entries, h.closing⟩

/-! ### The status of a head record -/

/-- The status with which a head record retires (R40, R45, R47). -/
def State.statusOf (s : State) (n : StreamNo) (r : StagedRecord) : Option RetiredStatus :=
  if r.outstanding = 0 ∧ r.retired = none then (s.stream n).retireStatus (s.noTransfers n) r else none

theorem State.retirableHead_of_cons {s : State} {n : StreamNo} {r : StagedRecord} {rest : List StagedRecord}
    (h : (s.stream n).staging = r :: rest) : s.retirableHead n = (s.statusOf n r).map (fun st => (r, st)) := by
  unfold State.retirableHead State.statusOf
  dsimp only
  rw [h]
  simp only [Bool.and_eq_true, beq_iff_eq, Option.isNone_iff_eq_none]
  split <;> rfl

theorem State.retirableHead_of_nil {s : State} {n : StreamNo} (h : (s.stream n).staging = []) :
    s.retirableHead n = none := by
  simp [State.retirableHead, h]

theorem State.retirableHead_eq_none_iff (s : State) (n : StreamNo) :
    s.retirableHead n = none ↔ ∀ r ∈ (s.stream n).staging.head?, s.statusOf n r = none := by
  cases h : (s.stream n).staging with
  | nil => simp [State.retirableHead_of_nil h]
  | cons r rest => simp [State.retirableHead_of_cons h]

theorem State.retirableHead_of_head {s : State} {n : StreamNo} {r : StagedRecord} {st : RetiredStatus}
    (hr : r ∈ (s.stream n).staging.head?) (hst : s.statusOf n r = some st) : s.retirableHead n = some (r, st) := by
  obtain ⟨rest, hstaging⟩ := List.head?_eq_some_iff.1 hr
  rw [State.retirableHead_of_cons hstaging, hst]
  rfl

theorem Stream.isHalting_iff (c : Stream) : c.isHalting = true ↔ c.state = .stopping ∨ c.state = .faulted := by
  simp [Stream.isHalting]

theorem Stream.retireStatus_of_halting {c : Stream} {noTransfers : Bool} {r : StagedRecord} (h : c.isHalting = true) :
    c.retireStatus noTransfers r = if noTransfers = true then
      some (if r.invalid.isSome then .rejected else if r.finished then .done else if r.failed then .aborted else .flushed)
      else none := by
  have hc : c.state ≠ .closed := by
    rintro hc
    simp [Stream.isHalting, hc] at h
  simp [Stream.retireStatus, hc, h]

theorem Stream.retireStatus_of_not_halting {c : Stream} {noTransfers : Bool} {r : StagedRecord}
    (h : c.isHalting = false) (hc : c.state ≠ .closed) :
    c.retireStatus noTransfers r =
      if r.invalid.isSome then some .rejected else if r.finished then some .done else none := by
  simp [Stream.retireStatus, hc, h]

/-! ### What a retirement leaves -/

theorem bufferDone_eq (n : StreamNo) (r : StagedRecord) (st : RetiredStatus) :
    bufferDone n r st = if st = .rejected then .bufferDone n r.record.tag r.ringIndex .rejected r.invalid 0 none false
      else .bufferDone n r.record.tag r.ringIndex st none r.moved r.firstPosition r.record.quietFlag := by
  unfold bufferDone
  by_cases h : st = .rejected <;> simp [h]

theorem Stream.placed_bufferDone (c : Stream) (n : StreamNo) (r : StagedRecord) (st : RetiredStatus) :
    c.placed (bufferDone n r st) = { c with staging := c.staging.tail } := by
  unfold bufferDone
  split <;> rfl

theorem State.accepts_free (s : State) (n : StreamNo) (c : Stream) : s.accepts n c false = s.roomFor (streamProducer n) := rfl

theorem State.handRemoval_heldEvents (s : State) (n : StreamNo) (r : ClearReason) :
    (s.handRemoval n r).heldEvents = s.heldEvents := by
  unfold State.handRemoval
  split <;> rfl

theorem State.handRemoval_removals (s : State) (n : StreamNo) (r : ClearReason) :
    (s.handRemoval n r).schedule.removals = s.schedule.removals ++ (match (s.stream n).scheduleEntry with
      | none => []
      | some id => [⟨id, n, r⟩]) := by
  unfold State.handRemoval
  split <;> rename_i h <;> simp [h]

/-- What a retirement leaves: its BUFFER_DONE is accepted and the record gone, or waits with the record marked. -/
theorem State.retireHead_leaves {s : State} {n : StreamNo} {r : StagedRecord} {rest : List StagedRecord}
    (st : RetiredStatus) (h : (s.stream n).staging = r :: rest) :
    let c := s.stream n
    let u := s.retireHead n r st
    let room := s.roomFor (streamProducer n)
    u.stream n = { c.retireHead (c.endsWith r st) st with
        staging := if room then rest else { r with retired := some st } :: rest
        pendingReport := if room then c.pendingReport else some ⟨bufferDone n r st, false⟩ }
      ∧ u.heldEvents = s.heldEvents ++ (if room then [bufferDone n r st] else [])
      ∧ u.schedule.removals = (if c.endsWith r st then s.handRemoval n .streamsLeft else s).schedule.removals := by
  dsimp only
  rw [State.retireHead_eq]
  generalize (s.stream n).endsWith r st = ends
  generalize hv : (if ends = true then s.handRemoval n .streamsLeft else s) = v
  have hroom : v.roomFor (streamProducer n) = s.roomFor (streamProducer n) := by
    rw [← hv]
    split
    · exact State.roomFor_handRemoval ..
    · rfl
  have hheld : v.heldEvents = s.heldEvents := by
    rw [← hv]
    split
    · exact State.handRemoval_heldEvents ..
    · rfl
  obtain ⟨hstream, hevents, hschedule, _⟩ := State.produce_leaves v n ((s.stream n).retireHead ends st) (bufferDone n r st) false
  rw [State.accepts_free, hroom] at hstream hevents
  refine ⟨?_, hheld ▸ hevents, by rw [hschedule]⟩
  rw [hstream, Stream.placed_bufferDone]
  cases s.roomFor (streamProducer n) <;> simp [Stream.retireHead, h]

/-- STOPPING that ends for an entry leaves the stream IDLE, and the entry its answer (R101). -/
theorem State.endStopping_entry_leaves {s : State} {n : StreamNo} (hd : (s.stream n).destination ≠ some .closed)
    (h : (s.stream n).stopOrigin = some .entry) :
    (s.endStopping n).stream n = (s.stream n).toIdle
      ∧ (s.endStopping n).command.streamWait = s.command.streamWait &&& ~~~streamBit n
      ∧ s.heldEvents <+: (s.endStopping n).heldEvents
      ∧ (entriesConsistent s.schedule.entries → State.ClosesFrom s (s.endStopping n)) := by
  have hidle : (s.enterIdle n).stream n = (s.stream n).toIdle := State.stream_modifyStream _ _ _
  have hcloses (he : entriesConsistent s.schedule.entries) : State.ClosesFrom s (s.enterIdle n) :=
    ⟨he, [], (List.append_nil _).symm, nofun⟩
  have hwait : State.KeptBySchedule (fun t => t.command.streamWait = (s.enterIdle n).command.streamWait) :=
    ⟨fun _ _ _ h _ _ => h, fun _ _ h _ => h⟩
  rw [State.endStopping_entry hd h]
  cases (s.stream n).answerTo with
  | none => exact ⟨hidle, rfl, List.prefix_rfl, hcloses⟩
  | some id =>
    refine ⟨?_, hwait.answerEntry (s := s.enterIdle n) id n rfl, ?_, fun he => ?_⟩
    · exact (((s.enterIdle n).answerEntry_touches id n).stream n (fun h => h)).trans hidle
    · exact (heldEvents_keptBySchedule s).answerEntry id n (List.prefix_rfl : s.heldEvents <+: (s.enterIdle n).heldEvents)
    · exact (closesFrom_keptBySchedule s).answerEntry id n (hcloses he)

end Sys2Proof.Machine

open Sys2Proof Sys2Proof.Machine

/-- Settles O36: each case is one of the equations of `State.settleStep`, and what its report leaves. -/
theorem reportsInOrder : Obligations.ReportsInOrder := by
  intro s n c halting status report room produced arrived final
  have hstatus (r : StagedRecord) : s.statusOf n r = status r := by
    unfold State.statusOf
    dsimp only [status]
    by_cases hout : r.outstanding = 0 ∧ r.retired = none
    · by_cases hclosed : c.state = .closed
      · rw [if_pos hout, if_pos (.inr (.inr hclosed))]
        simp [Stream.retireStatus, show (s.stream n).state = .closed from hclosed]
      · rw [if_pos hout, if_neg (by tauto)]
        by_cases hhalting : halting
        · rw [Stream.retireStatus_of_halting ((Stream.isHalting_iff _).2 hhalting)]
          cases s.noTransfers n <;> cases r.invalid <;> cases r.finished <;> cases r.failed <;> simp [hhalting]
        · rw [Stream.retireStatus_of_not_halting (Bool.eq_false_iff.2 fun h => hhalting ((Stream.isHalting_iff _).1 h)) hclosed]
          cases r.invalid <;> cases r.finished <;> simp [hhalting]
    · rw [if_neg hout, if_pos (by tauto)]
  have hproduced (d : Stream) (ev : Event) (drainRun : Bool) (hd : d.pendingReport = none)
      (hplaced : (d.placed ev).pendingReport = none) :
      produced ((s.putStream n d).produce n ev drainRun) ev drainRun (s.accepts n d drainRun) := by
    obtain ⟨hstream, hevents, _⟩ := State.produce_leaves s n d ev drainRun
    dsimp only [produced]
    rw [hstream, hevents]
    cases s.accepts n d drainRun <;> simp [hplaced]
  refine ⟨State.settleStep_of_pending, fun hp => ⟨?_, ?_, ?_⟩⟩
  · rintro ⟨cause, p⟩ hf
    refine ⟨_, State.settleStep_fault hp hf, hproduced { c with faultOwed := none } (.streamFault n cause p) false hp hp, ?_⟩
    obtain ⟨hstream, _⟩ := State.produce_leaves s n { c with faultOwed := none } (.streamFault n cause p) false
    rw [hstream]
    split <;> exact ⟨rfl, rfl, rfl⟩
  · intro hf r hr st hst
    obtain ⟨rest, hstaging⟩ := List.head?_eq_some_iff.1 hr
    obtain ⟨hstream, hevents, hremovals⟩ := State.retireHead_leaves st hstaging
    refine ⟨_, State.settleStep_retire hp hf (State.retirableHead_of_head hr ((hstatus r).trans hst)), ?_, ?_, ?_, ?_⟩
    · dsimp only [produced]
      rw [hstream, hevents, bufferDone_eq]
      split
      · exact ⟨rfl, hp⟩
      · exact ⟨List.append_nil _, rfl⟩
    · rw [hstream, show c.staging = r :: rest from hstaging]
      rfl
    · rw [hstream]
      rfl
    · rw [hstream, hremovals]
      have hends : c.endsWith r st = true ↔
          r.invalid = none ∧ r.record.endFlag = true ∧ st = .done ∧ c.isRunning = true := by
        simp [Stream.endsWith, StagedRecord.isEnd, and_assoc]
      by_cases he : c.endsWith r st = true
      · rw [if_pos (hends.1 he), if_pos he]
        exact ⟨by rw [he]; rfl, by rw [he]; rfl, State.handRemoval_removals s n _⟩
      · rw [if_neg (fun h => he (hends.2 h)), if_neg he]
        have he : c.endsWith r st = false := by simpa using he
        exact ⟨by rw [he]; rfl, by rw [he]; rfl, rfl⟩
  · intro hf hr
    have hhead : s.retirableHead n = none :=
      (State.retirableHead_eq_none_iff s n).2 fun r h => (hstatus r).trans (hr r h)
    refine ⟨fun o ho => ?_, fun ho => ?_⟩
    · have haccepts : s.accepts n { c with stopOwed := none } o.drainRun = (room && (!o.drainRun || c.drainAnswered)) :=
        Bool.and_comm _ _
      obtain ⟨hstream, _, _, harrived⟩ := State.produce_leaves s n { c with stopOwed := none }
        (.streamStopDone n c.generator o.reason c.finalPosition) o.drainRun
      refine ⟨_, State.settleStep_stopDone hp hf hhead ho, ?_, ?_⟩
      · rw [← haccepts]
        refine hproduced { c with stopOwed := none } _ _ hp ?_
        rw [Stream.placed_stopDone]
        split <;> exact hp
      · rw [hstream, haccepts]
        rw [haccepts] at harrived
        generalize (room && (!o.drainRun || c.drainAnswered)) = accepted at harrived
        cases accepted with
        | false => exact ⟨rfl, ⟨rfl, rfl, rfl, rfl, rfl⟩, nofun, fun _ => rfl⟩
        | true =>
          rw [if_pos rfl, Stream.placed_stopDone]
          refine ⟨?_, ?_, fun _ hrun => ?_, nofun⟩
          · split <;> rfl
          · split <;> exact ⟨rfl, rfl, rfl, rfl, rfl⟩
          · have hends : (o.reason == .command || ({ c with stopOwed := none } : Stream).isRunning) = true :=
              Bool.or_eq_true_iff.2 (.inr hrun)
            rw [if_pos hends]
            refine ⟨rfl, rfl, ?_⟩
            dsimp only [arrived]
            rw [harrived rfl hends]
            exact streamWait_cleared _ _
    · have hdrain : c.drainComplete = true ↔ c.state = .draining ∧ c.staging = [] ∧ c.drainLimit = some c.consumer := by
        simp [Stream.drainComplete, and_assoc]
      have hends : s.stoppingEnds n = true ↔ c.state = .stopping ∧ c.staging = [] ∧ s.noTransfers n = true := by
        simp [State.stoppingEnds, and_assoc, c]
      have hstep := State.settleStep_idle hp hf hhead ho
      split
      · rename_i h
        rw [hstep, if_pos (hdrain.2 h)]
      · rename_i hnot
        rw [hstep, if_neg (fun h => hnot (hdrain.1 h))]
        split
        · rename_i h
          refine ⟨_, if_pos (hends.2 h), ?_⟩
          split
          · rename_i hclosed
            rw [State.endStopping_closed hclosed]
            exact ⟨State.stream_putStream _ _ _, State.port_putPort _ _ _, rfl, streamWait_cleared _ _⟩
          · rename_i hclosed
            have hidle : (s.enterIdle n).stream n = c.toIdle := State.stream_modifyStream _ _ _
            split
            · rename_i hentry
              obtain ⟨hstream, hwait, hheld, hcloses⟩ := State.endStopping_entry_leaves hclosed hentry
              dsimp only [arrived]
              rw [hstream, hwait]
              refine ⟨rfl, ⟨rfl, rfl, rfl, rfl, rfl⟩, streamWait_cleared _ _, hheld, fun hconsistent ev hev => ?_⟩
              obtain ⟨l, hl, hclosing⟩ := (hcloses ((State.scheduleConsistent_iff s).1 hconsistent)).closing
              rw [hl, List.drop_left] at hev
              obtain ⟨id, hid⟩ := hclosing ev hev
              exact Event.closesEntry_not_stopDone hid
            · rename_i hentry
              split
              · rename_i hreported
                rw [State.endStopping_reported hclosed hentry hreported, hidle]
                exact ⟨rfl, ⟨rfl, rfl, rfl, rfl, rfl⟩, streamWait_cleared _ _, rfl⟩
              · rename_i hreported
                rw [State.endStopping_reports hclosed hentry (by simpa using hreported)]
                obtain ⟨hstream, _, _, harrived⟩ := State.produce_leaves s n c
                  (.streamStopDone n c.generator .command c.stoppedAt) false
                refine ⟨hproduced c _ false hp hp, ?_⟩
                rw [hstream, State.accepts_free]
                rw [State.accepts_free] at harrived
                show _ ∧ _ = (if s.roomFor (streamProducer n) = true then _ else _) ∧ (s.roomFor (streamProducer n) = true → _)
                cases hroom : s.roomFor (streamProducer n) with
                | false => exact ⟨⟨rfl, rfl, rfl, rfl, rfl⟩, h.1, nofun⟩
                | true =>
                  refine ⟨⟨rfl, rfl, rfl, rfl, rfl⟩, rfl, fun _ => ?_⟩
                  dsimp only [arrived]
                  rw [harrived hroom rfl]
                  exact streamWait_cleared _ _
        · rename_i hnot
          exact if_neg fun h => hnot (hends.1 h)

end

section
/-! An examination ends with its stream settled (R40, R46): each step of it reports something, and what is left to report
goes down. -/

namespace Sys2Proof.Machine

/-! ### What is left to report -/

/-- How many reports of stops a context can still make: of its run, of a drain, and of the end of STOPPING. -/
def stopRank (running stopping owes : Bool) : Nat :=
  if running then (if owes then 2 else 3) else stopping.toNat + owes.toNat

/-- How many steps of an examination a context can take until its report waits. -/
def Stream.reportRank (c : Stream) : Nat :=
  c.staging.length + c.faultOwed.isSome.toNat + stopRank c.isRunning (c.state == .stopping) c.stopOwed.isSome

theorem stopRank_le (running stopping owes : Bool) : stopRank running stopping owes ≤ 3 := by
  decide +revert

/-- An END that retires can only bring forward the STOP_DONE of its run. -/
theorem stopRank_owing (stopping owes : Bool) : stopRank true stopping true ≤ stopRank true stopping owes := by
  decide +revert

/-- A STOP_DONE that is produced leaves less to report, in IDLE or outside a run. -/
theorem stopRank_reported (running stopping : Bool) (idle : Bool) (h : running = true → idle = true) :
    (if idle then stopRank false false false else stopRank running stopping false) < stopRank running stopping true := by
  decide +revert

theorem Stream.reportRank_toIdle (c : Stream) :
    c.toIdle.reportRank = c.staging.length + c.faultOwed.isSome.toNat + stopRank false false c.stopOwed.isSome := rfl

theorem State.produce_pending {s : State} {n : StreamNo} {c : Stream} {drainRun : Bool} (e : Event) (k : Nat)
    (h : (c.placed e).reportRank < k) :
    (((s.putStream n c).produce n e drainRun).stream n).pendingReport ≠ none
      ∨ (((s.putStream n c).produce n e drainRun).stream n).reportRank < k := by
  obtain ⟨hstream, _⟩ := State.produce_leaves s n c e drainRun
  rw [hstream]
  split
  · exact .inr h
  · exact .inl (by simp)

theorem Stream.reportRank_retired {c : Stream} {ends : Bool} {r : StagedRecord} {rest : List StagedRecord}
    (h : c.staging = r :: rest) (st : RetiredStatus) (hends : ends = true → c.isRunning = true) (p : Option PendingReport) :
    ({ c.retireHead ends st with staging := rest, pendingReport := p } : Stream).reportRank < c.reportRank := by
  have hlength : c.staging.length = rest.length + 1 := by rw [h]; rfl
  show rest.length + c.faultOwed.isSome.toNat + stopRank c.isRunning (c.state == .stopping)
    (if ends then some ⟨.endRecord, c.state == .draining⟩ else c.stopOwed).isSome < _
  unfold Stream.reportRank
  cases ends with
  | false =>
    rw [if_neg (by simp)]
    omega
  | true =>
    have := stopRank_owing (c.state == .stopping) c.stopOwed.isSome
    rw [if_pos rfl, hends rfl, Option.isSome_some]
    omega

theorem Stream.reportRank_stopDone {c : Stream} {o : OwedStop} (h : c.stopOwed = some o) (m : StreamNo) (g : GenNo)
    (reason : StopReason) (p : Position) :
    (({ c with stopOwed := none } : Stream).placed (.streamStopDone m g reason p)).reportRank < c.reportRank := by
  have hrank := stopRank_reported c.isRunning (c.state == .stopping) (reason == .command || c.isRunning)
    (fun hr => Bool.or_eq_true_iff.2 (.inr hr))
  rw [Stream.placed_stopDone]
  show (if (reason == .command || c.isRunning) = true then ({ c with stopOwed := none } : Stream).toIdle else _).reportRank < _
  conv_rhs => unfold Stream.reportRank
  rw [h]
  split
  · rename_i hidle
    rw [if_pos hidle] at hrank
    exact Nat.add_lt_add_left hrank _
  · rename_i hidle
    rw [if_neg hidle] at hrank
    exact Nat.add_lt_add_left hrank _

theorem State.settleStep_rank {s t : State} {n : StreamNo} (h : s.settleStep n = some t) :
    (t.stream n).pendingReport ≠ none ∨ (t.stream n).reportRank < (s.stream n).reportRank := by
  have hidle (ho : (s.stream n).stopOwed = none) (he : s.stoppingEnds n = true) :
      (s.stream n).toIdle.reportRank < (s.stream n).reportRank := by
    simp only [State.stoppingEnds, Bool.and_eq_true, beq_iff_eq] at he
    obtain ⟨⟨hstate, _⟩, _⟩ := he
    have hrun : (s.stream n).isRunning = false := by simp [Stream.isRunning, hstate]
    rw [Stream.reportRank_toIdle]
    unfold Stream.reportRank
    rw [hrun, ho, hstate]
    exact Nat.add_lt_add_left (by decide) _
  refine State.settleStep_cases h (P := fun t => (t.stream n).pendingReport ≠ none
    ∨ (t.stream n).reportRank < (s.stream n).reportRank) ?_ ?_ ?_ ?_ ?_
  · intro cause p hf
    refine State.produce_pending _ _ ?_
    show _ + 0 + _ < _
    unfold Stream.reportRank
    rw [hf]
    exact Nat.add_lt_add_right (Nat.lt_succ_self _) _
  · intro r st hr
    obtain ⟨rest, hstaging, _⟩ := State.retirableHead_eq_some hr
    obtain ⟨hstream, _⟩ := State.retireHead_leaves st hstaging
    rw [hstream]
    split
    · refine .inr (Stream.reportRank_retired hstaging st (fun he => ?_) _)
      simp only [Stream.endsWith, Bool.and_eq_true] at he
      exact he.2
    · exact .inl (by simp)
  · intro o ho
    exact State.produce_pending _ _ (Stream.reportRank_stopDone ho _ _ _ _)
  · intro ho hd
    simp only [Stream.drainComplete, Bool.and_eq_true, beq_iff_eq] at hd
    obtain ⟨⟨hstate, _⟩, _⟩ := hd
    have hrun : (s.stream n).isRunning = true := by simp [Stream.isRunning, hstate]
    rw [State.stream_putStream]
    refine .inr (Nat.add_lt_add_left ?_ _)
    rw [hrun, ho]
    show stopRank (s.stream n).isRunning ((s.stream n).state == .stopping) true < _
    rw [hrun, hstate]
    decide
  · rintro ⟨-, -, ho⟩ he
    by_cases hd : (s.stream n).destination = some .closed
    · rw [State.endStopping_closed hd]
      have hclosed : (s.enterClosed n).stream n = closedStream := State.stream_putStream _ _ _
      rw [hclosed]
      exact .inr (Nat.zero_lt_of_lt (hidle ho he))
    · by_cases ho' : (s.stream n).stopOrigin = some .entry
      · rw [(State.endStopping_entry_leaves hd ho').1]
        exact .inr (hidle ho he)
      · cases hr : (s.stream n).stopReported with
        | true =>
          rw [State.endStopping_reported hd ho' hr]
          have hentered : (s.enterIdle n).stream n = (s.stream n).toIdle := State.stream_modifyStream _ _ _
          rw [hentered]
          exact .inr (hidle ho he)
        | false =>
          rw [State.endStopping_reports hd ho' hr]
          exact State.produce_pending _ _ (hidle ho he)

theorem settleFuel_isSettled {n : StreamNo} (k : Nat) (s : State)
    (h : (s.stream n).pendingReport ≠ none ∨ (s.stream n).reportRank < k) : (settleFuel k n s).isSettled n = true := by
  induction k generalizing s with
  | zero => exact State.isSettled_iff.2 (.inl (h.resolve_right (Nat.not_lt_zero _)))
  | succ k ih =>
    unfold settleFuel
    split
    · rename_i hnone
      rw [State.isSettled, hnone]
      rfl
    · rename_i t ht
      refine ih t ((State.settleStep_rank ht).imp_right fun hlt => ?_)
      rcases h with h | h
      · rw [State.settleStep_of_pending h] at ht
        cases ht
      · omega

/-- After an examination the stream is settled. -/
theorem State.settle_isSettled (s : State) (n : StreamNo) : (s.settle n).isSettled n = true := by
  refine settleFuel_isSettled _ s (.inr ?_)
  have hfault := Bool.toNat_le (s.stream n).faultOwed.isSome
  have hstop := stopRank_le (s.stream n).isRunning ((s.stream n).state == .stopping) (s.stream n).stopOwed.isSome
  unfold Stream.reportRank
  omega

/-! ### What keeps a stream settled -/

/-- Nothing is left for a context to report, with or without transfers outstanding. -/
structure Stream.Rests (c : Stream) (noTransfers : Bool) : Prop where
  fault : c.faultOwed = none
  head : ∀ r ∈ c.staging.head?, r.outstanding = 0 → r.retired = none → c.retireStatus noTransfers r = none
  stop : c.stopOwed = none
  drain : c.drainComplete = false
  ends : c.state = .stopping → c.staging = [] → noTransfers = false

theorem State.isSettled_iff_rests (s : State) (n : StreamNo) :
    s.isSettled n = true ↔ (s.stream n).pendingReport ≠ none ∨ (s.stream n).Rests (s.noTransfers n) := by
  rw [State.isSettled_iff, State.retirableHead_eq_none_iff]
  refine or_congr_right ⟨?_, fun h => ⟨h.fault, fun r hr => ?_, h.stop, h.drain, ?_⟩⟩
  · rintro ⟨hf, hhead, hs, hd, he⟩
    refine ⟨hf, fun r hr hout hret => ?_, hs, hd, fun hstate hstaging => ?_⟩
    · have := hhead r hr
      rwa [State.statusOf, if_pos ⟨hout, hret⟩] at this
    · simpa [State.stoppingEnds, hstate, hstaging] using he
  · unfold State.statusOf
    split
    · rename_i hr'
      exact h.head r hr hr'.1 hr'.2
    · rfl
  · unfold State.stoppingEnds
    rw [Bool.eq_false_iff]
    intro hends
    simp only [Bool.and_eq_true, beq_iff_eq, List.isEmpty_iff] at hends
    obtain ⟨⟨hstate, hstaging⟩, hnone⟩ := hends
    rw [h.ends hstate hstaging] at hnone
    cases hnone

/-- A stream stays settled while its context and whether it has transfers stand. -/
theorem State.isSettled_of_same {s t : State} {n : StreamNo} (h : s.isSettled n = true)
    (stream : t.stream n = s.stream n) (transfers : t.noTransfers n = s.noTransfers n) : t.isSettled n = true := by
  rw [State.isSettled_iff_rests] at h ⊢
  rwa [stream, transfers]

theorem State.discardReads_noTransfers (s : State) (n m : StreamNo) : (s.discardReads n).noTransfers m = s.noTransfers m := by
  simp [State.noTransfers]

/-- What is done to other streams keeps stream `m` settled. -/
theorem settled_kept (m : StreamNo) : State.Kept (fun n => n ≠ m) (fun s => s.isSettled m = true) where
  accept := fun _ _ h _ => State.isSettled_of_same h rfl rfl
  context := fun s _ _ h hn _ => State.isSettled_of_same h (State.stream_putStream_of_ne s _ hn) rfl
  close := fun s _ h hn _ => State.isSettled_of_same h (State.stream_putStream_of_ne s _ hn) rfl
  port := fun _ _ _ h _ => State.isSettled_of_same h rfl rfl
  discard := fun s n h _ => by
    refine State.isSettled_of_same h ?_ (s.discardReads_noTransfers n m)
    rw [State.stream, State.discardReads_streams]
    rfl
  command := fun _ _ h _ => State.isSettled_of_same h rfl rfl
  schedule := fun _ _ h _ => State.isSettled_of_same h rfl rfl

theorem settled_keptByTick {n m : StreamNo} (hne : n ≠ m) : State.KeptByTick n (fun s => s.isSettled m = true) where
  accept := (settled_kept m).accept
  context := fun s k d h hk => (settled_kept m).context s k d h (hk ▸ hne)
  close := fun s k h hk => (settled_kept m).close s k h (hk ▸ hne)
  port := fun s k p h hk => (settled_kept m).port s k p h (hk ▸ hne)
  discard := fun s k h hk => (settled_kept m).discard s k h (hk ▸ hne)
  command := (settled_kept m).command
  schedule := (settled_kept m).schedule
  ticks := fun s _ h _ => State.isSettled_of_same h (State.stream_putStream_of_ne s _ hne) rfl

end Sys2Proof.Machine
end

section
/-! What every operation does about the reports and the waiting events that are due: the walk over the operations, said once
for what each of them keeps, and its first case, that the streams stay settled (R40, R46). -/

namespace Sys2Proof.Machine

/-! ### Changes that leave nothing new due -/

/-- Context `d` has the reports of `c`, in its state or moved between IDLE and ARMED. -/
structure Stream.SameReports (c d : Stream) : Prop where
  pending : d.pendingReport = c.pendingReport
  fault : d.faultOwed = c.faultOwed
  stop : d.stopOwed = c.stopOwed
  staging : d.staging = c.staging
  drain : d.drainLimit = c.drainLimit ∧ d.consumer = c.consumer
  gate : d.drainAnswered = true → c.drainAnswered = true
  state : d.state = c.state ∨ (c.state = .idle ∨ c.state = .armed) ∧ (d.state = .idle ∨ d.state = .armed)

theorem Stream.retireStatus_congr {c d : Stream} (h : d.state = c.state) (b : Bool) (r : StagedRecord) :
    d.retireStatus b r = c.retireStatus b r := by
  simp [Stream.retireStatus, Stream.isHalting, h]

theorem Stream.SameReports.rests {c d : Stream} {b : Bool} (h : c.SameReports d) (hc : c.Rests b) : d.Rests b := by
  obtain ⟨hlimit, hconsumer⟩ := h.drain
  rcases h.state with hs | ⟨hs, hs'⟩
  · refine ⟨h.fault ▸ hc.fault, fun r hr => ?_, h.stop ▸ hc.stop, ?_, fun he => ?_⟩
    · rw [Stream.retireStatus_congr hs]
      exact hc.head r (h.staging ▸ hr)
    · have := hc.drain
      rwa [Stream.drainComplete, ← h.staging, ← hlimit, ← hconsumer, ← hs] at this
    · rw [h.staging]
      exact hc.ends (hs ▸ he)
  · have hstatus (r : StagedRecord) : d.retireStatus b r = c.retireStatus b r := by
      rcases hs with hs | hs <;> rcases hs' with hs' | hs' <;> simp [Stream.retireStatus, Stream.isHalting, hs, hs']
    refine ⟨h.fault ▸ hc.fault, fun r hr => ?_, h.stop ▸ hc.stop, ?_, fun he => ?_⟩
    · rw [hstatus]
      exact hc.head r (h.staging ▸ hr)
    · rcases hs' with hs' | hs' <;> simp [Stream.drainComplete, hs']
    · rcases hs' with hs' | hs' <;> simp [hs'] at he

theorem Stream.SameReports.refl (c : Stream) : c.SameReports c := ⟨rfl, rfl, rfl, rfl, ⟨rfl, rfl⟩, id, .inl rfl⟩

theorem Stream.returned_sameReports (c : Stream) (e : ScheduleEntry) : c.SameReports (c.returned e) := by
  unfold Stream.returned
  split
  · exact .refl c
  · split
    · split
      · rename_i harmed
        exact ⟨rfl, rfl, rfl, rfl, ⟨rfl, rfl⟩, nofun, .inr ⟨.inr (by simpa using harmed), .inl rfl⟩⟩
      · exact .refl c
    · exact ⟨rfl, rfl, rfl, rfl, ⟨rfl, rfl⟩, id, .inl rfl⟩

/-- A change that leaves the reports of a stream leaves it settled. -/
theorem State.isSettled_putStream {s : State} {n m : StreamNo} {d : Stream} (h : s.isSettled m = true)
    (hd : (s.stream n).SameReports d) : (s.putStream n d).isSettled m = true := by
  rcases eq_or_ne n m with rfl | hne
  · rw [State.isSettled_iff_rests] at h ⊢
    rw [State.stream_putStream, hd.pending]
    exact h.imp_right hd.rests
  · exact State.isSettled_of_same h (State.stream_putStream_of_ne s _ hne) rfl

/-- Nothing that a report or a waiting event rests on has changed: contexts, transfers, the held events and who waits. -/
structure State.SameDuties (s t : State) : Prop where
  streams : t.streams = s.streams
  table : t.transfers.table = s.transfers.table
  holding : t.events.holding.length = s.events.holding.length
  slot : t.command.slot = s.command.slot
  offerable : t.offerableClosing.isSome = true → s.offerableClosing.isSome = true
  lost : t.timebase.lostReports = s.timebase.lostReports

/-- An operation keeps `P`; between the change of stream `n` and its examination it has `Q n`. -/
structure State.KeptByDuties (P : State → Prop) (Q : StreamNo → State → Prop) : Prop where
  same : ∀ s t, P s → State.SameDuties s t → P t
  accept : ∀ s e, P s → s.placeFree = true → P (s.accept e)
  put : ∀ s n d, P s → (s.stream n).SameReports d → P (s.putStream n d)
  opens : ∀ s n p c, P s → (s.stream n).state = .closed → openedStream p = some c → P (s.putStream n c)
  settle : ∀ s n, Q n s → P (s.settle n)
  changes : ∀ s n d, P s → d.pendingReport = (s.stream n).pendingReport →
    (d.drainAnswered = true → (s.stream n).drainAnswered = true) → Q n (s.putStream n d)
  faults : ∀ s n cause p, P s → Q n (s.enterFaulted n cause p)
  stops : ∀ s n d o a, P s → Q n (s.enterStopping n d o a)
  runs : ∀ s n d p bits, P s → d.pendingReport = (s.stream n).pendingReport →
    (d.drainAnswered = true → (s.stream n).drainAnswered = true) → Q n ((s.putStream n d).runTick n p bits)
  tails : ∀ s n, P s → (s.stream n).inTail = true → P (s.modifyStream n Stream.tailTick)
  answers : ∀ s status result tell, P s → P (s.produceCmdDone status result tell)
  answerEntry : ∀ s id n, P s → P (s.answerEntry id n)
  removes : ∀ s id n reason, P s → P (s.removeFromEntry id n reason)
  clears : ∀ s id reason, P s → P (s.clearEntry id reason)
  losesReference : ∀ s g, P s → P (s.loseReference g).offerLost

/-! ### Entries whose closing events stand -/

/-- Entry `e'` is `e` in what its offer rests on. -/
def ScheduleEntry.SameOffer (e e' : ScheduleEntry) : Prop :=
  e'.id = e.id ∧ e'.closing = e.closing ∧ e'.creationAnswered = e.creationAnswered

/-- The entry may offer its closing event once it is first in the offering order (R108). -/
def ScheduleEntry.offers (e : ScheduleEntry) : Bool := e.creationAnswered && e.closing.isSome

theorem State.offerable_isSome (s : State) : s.offerableClosing.isSome
    = s.schedule.offering.head?.any (fun id => (s.schedule.entries.find? (fun e => e.id == id)).any ScheduleEntry.offers) := by
  unfold State.offerableClosing State.entry?
  cases s.schedule.offering with
  | nil => rfl
  | cons id rest =>
    simp only [List.head?_cons, Option.any_some]
    cases s.schedule.entries.find? (fun e => e.id == id) with
    | none => rfl
    | some e => cases h : e.creationAnswered <;> simp [ScheduleEntry.offers, h]

theorem find?_sameOffer {l l' : List ScheduleEntry} (h : List.Forall₂ ScheduleEntry.SameOffer l l') (id : EntryId) :
    (l'.find? (fun e => e.id == id)).any ScheduleEntry.offers = (l.find? (fun e => e.id == id)).any ScheduleEntry.offers := by
  induction h with
  | nil => rfl
  | cons he _ ih =>
    obtain ⟨hid, hclosing, hanswered⟩ := he
    rw [List.find?_cons, List.find?_cons, hid]
    split
    · simp [ScheduleEntry.offers, hclosing, hanswered]
    · exact ih

/-- A change that keeps the id, the closing event and the creation answer of every entry leaves the offer as it is. -/
theorem State.offerable_sameOffer {s t : State}
    (h : List.Forall₂ ScheduleEntry.SameOffer s.schedule.entries t.schedule.entries)
    (offering : t.schedule.offering = s.schedule.offering) :
    t.offerableClosing.isSome = s.offerableClosing.isSome := by
  rw [State.offerable_isSome, State.offerable_isSome, offering]
  simp only [find?_sameOffer h]

theorem sameOffer_map (l : List ScheduleEntry) {f : ScheduleEntry → ScheduleEntry}
    (hf : ∀ e : ScheduleEntry, e.SameOffer (f e)) :
    List.Forall₂ ScheduleEntry.SameOffer l (l.map f) := by
  induction l with
  | nil => exact .nil
  | cons e l ih => exact .cons (hf e) ih

theorem fireEntries_sameOffer (g : GenNo) (p : Position) (older : List EntryId) (l : List ScheduleEntry) :
    List.Forall₂ ScheduleEntry.SameOffer l (fireEntries g p older l) := by
  induction l generalizing older with
  | nil => exact .nil
  | cons e l ih =>
    unfold fireEntries
    split
    · exact .cons ⟨rfl, rfl, rfl⟩ (ih _)
    · exact .cons ⟨rfl, rfl, rfl⟩ (ih _)

theorem State.makeDue_sameOffer (s : State) (l : LineNo) :
    List.Forall₂ ScheduleEntry.SameOffer s.schedule.entries (s.makeDue l).schedule.entries := by
  refine sameOffer_map _ fun e => ?_
  split <;> exact ⟨rfl, rfl, rfl⟩

/-- A new entry offers nothing. -/
theorem State.offerable_addEntry {s : State} {e : ScheduleEntry} (h : e.closing = none) :
    (s.addEntry e).offerableClosing.isSome = s.offerableClosing.isSome := by
  rw [State.offerable_isSome, State.offerable_isSome, State.addEntry]
  dsimp only
  congr 1
  funext id
  rw [List.find?_append]
  cases s.schedule.entries.find? (fun x => x.id == id) with
  | some x => rfl
  | none =>
    rw [Option.none_or, List.find?_singleton]
    split <;> simp [ScheduleEntry.offers, h]

/-! ### The walk -/

/-- The contexts, the transfers, the held events and who waits are as they were. -/
theorem State.SameDuties.of {s t : State} (streams : t.streams = s.streams)
    (table : t.transfers.table = s.transfers.table) (holding : t.events.holding = s.events.holding)
    (slot : t.command.slot = s.command.slot) (schedule : t.schedule = s.schedule)
    (lost : t.timebase.lostReports = s.timebase.lostReports) : State.SameDuties s t :=
  ⟨streams, table, congrArg List.length holding, slot, fun h => by
    rwa [State.offerableClosing_congr (congrArg ScheduleUnit.entries schedule)
      (congrArg ScheduleUnit.offering schedule)] at h, lost⟩

namespace State.KeptByDuties

variable {P : State → Prop} {Q : StreamNo → State → Prop}

theorem foldl {α : Type} {s : State} (h : P s) (f : State → α → State) (l : List α)
    (hf : ∀ t : State, P t → ∀ a ∈ l, P (f t a)) : P (l.foldl f s) :=
  State.foldl_kept f l (fun t a ha ht => hf t ht a ha) h

variable (K : State.KeptByDuties P Q) {s : State}
include K

theorem examineCommand (h : P s) : P s.examineCommand := by
  unfold State.examineCommand
  split
  · split
    · exact h
    · exact K.answers _ _ _ _ h
  · exact h

theorem settleStream {n : StreamNo} (h : Q n s) : P (s.settleStream n) := K.examineCommand (K.settle s n h)

theorem refuse (h : P s) (status : Status) : P (s.refuse status) := K.answers _ _ _ _ h

theorem answerOk (h : P s) (result : List Byte) : P (s.answerOk result) := K.answers _ _ _ _ h

theorem loseEntries (h : P s) (g : GenNo) : P (s.loseEntries g) := by
  unfold State.loseEntries
  exact foldl h _ _ fun t ht id _ => K.clears t id _ ht

theorem takeOrder (h : P s) : P s.takeOrder.2 := by
  rw [State.takeOrder_snd]
  exact K.same s _ h (.of rfl rfl rfl rfl rfl rfl)

/-! ### Commands -/

theorem openStream (h : P s) (p : OpenParams) : P (s.openStream p) := by
  unfold State.openStream
  split
  · exact K.refuse h _
  · split
    · exact K.refuse h _
    · rename_i hclosed
      split
      · exact K.refuse h _
      · rename_i c hc
        exact K.answerOk (K.opens s _ p c h (by simpa using hclosed) hc) _

theorem closeStream (h : P s) (number : BitVec 8) : P (s.closeStream number) := by
  unfold State.closeStream
  split
  · exact K.refuse h _
  · dsimp only
    split
    · exact K.refuse h _
    · exact K.settleStream (K.stops _ _ _ _ _ (K.same s _ h (.of rfl rfl rfl rfl rfl rfl)))

theorem nameStreams (h : P s) (e : ScheduleEntry)
    (he : e.kind = .start → ∀ n, e.streams.getLsbD n.val = true → (s.stream n).state = .idle) : P (s.nameStreams e) := by
  have hfold : P (s.nameStreams e) ∧ (e.kind = .start → ∀ n, e.streams.getLsbD n.val = true →
      ((s.nameStreams e).stream n).state = .idle ∨ ((s.nameStreams e).stream n).state = .armed) := by
    refine State.foldl_kept (P := fun t => P t ∧ (e.kind = .start → ∀ n, e.streams.getLsbD n.val = true →
      (t.stream n).state = .idle ∨ (t.stream n).state = .armed)) _ _ (fun t n hn ht => ⟨?_, fun hk m hm => ?_⟩)
      ⟨h, fun hk n hn => .inl (he hk n hn)⟩
    · obtain ⟨hkept, hstate⟩ := ht
      refine K.put t n _ hkept ⟨rfl, rfl, rfl, rfl, ⟨rfl, rfl⟩, id, ?_⟩
      cases hk : e.kind with
      | stop => exact .inl rfl
      | start => exact .inr ⟨hstate hk n (List.mem_filter.1 hn).2, .inr rfl⟩
    · rcases eq_or_ne n m with rfl | hne
      · rw [State.stream_modifyStream, hk]
        exact .inr rfl
      · rw [State.stream_modifyStream_of_ne _ _ hne]
        exact ht.2 hk m hm
  exact hfold.1

theorem createEntry (h : P s) (kind : EntryKind) (g : GenNo) (condition : Condition) (p : ScheduleParams)
    (hk : kind = .start → ∀ n, p.streams.getLsbD n.val = true → (s.stream n).state = .idle) :
    P (s.createEntry kind g condition p) := by
  have hadded : State.SameDuties s (s.addEntry (s.newEntry kind g condition p.target p.streams)) :=
    ⟨rfl, rfl, rfl, rfl, fun ho => by rwa [State.offerable_addEntry rfl] at ho, rfl⟩
  unfold State.createEntry
  refine K.answers _ _ _ _ (K.nameStreams (K.same s _ h hadded) _ ?_)
  exact hk

theorem start (h : P s) (p : ScheduleParams) : P (s.start p) := by
  unfold State.start
  split
  · dsimp only
    split
    · exact K.refuse h _
    · rename_i hchecks
      refine K.createEntry h _ _ _ _ fun _ n hn => ?_
      have hidle := (firstFailure_eq_none_iff _).1 hchecks (_, .badState) (.head _)
      have := List.all_eq_true.1 hidle n (List.mem_filter.2 ⟨mem_configStreams n, hn⟩)
      simpa using this
  · exact K.refuse h _

theorem stopEntry (h : P s) (p : ScheduleParams) (condition : Condition) : P (s.stopEntry p condition) := by
  unfold State.stopEntry
  split
  · exact K.refuse h _
  · dsimp only
    split
    · exact K.refuse h _
    · exact K.createEntry h _ _ _ _ nofun

theorem stopRemoval (h : P s) (n : StreamNo) : P (s.stopRemoval n) := by
  unfold State.stopRemoval
  split
  · exact h
  · dsimp only
    have hfreed : P (s.modifyStream n (fun c => { c with scheduleEntry := none })) :=
      K.put s n _ h ⟨rfl, rfl, rfl, rfl, ⟨rfl, rfl⟩, id, .inl rfl⟩
    refine K.removes _ _ _ _ ?_
    split
    · exact K.same _ _ hfreed (.of rfl rfl rfl rfl rfl rfl)
    · exact hfreed

theorem stopStream (h : P s) (n : StreamNo) : P (s.stopStream n) := by
  unfold State.stopStream
  split
  · rename_i harmed
    exact K.put s n _ h ⟨rfl, rfl, rfl, rfl, ⟨rfl, rfl⟩, nofun, .inr ⟨.inr (by simpa using harmed), .inl rfl⟩⟩
  · exact K.settle _ _ (K.stops s _ _ _ _ h)

theorem stopNow (h : P s) (p : ScheduleParams) : P (s.stopNow p) := by
  unfold State.stopNow
  dsimp only
  split
  · exact K.refuse h _
  · split
    · exact K.refuse h _
    · refine K.examineCommand (foldl ?_ _ _ fun t ht n _ => K.stopStream ht n)
      refine foldl ?_ _ _ fun t ht n _ => K.stopRemoval ht n
      exact K.same _ _ (K.takeOrder h) (.of rfl rfl rfl rfl rfl rfl)

theorem stopDrain (h : P s) (p : ScheduleParams) : P (s.stopDrain p) := by
  unfold State.stopDrain
  split
  · dsimp only
    split
    · exact K.refuse h _
    · exact K.answers _ _ _ _ (K.settle _ _ (K.changes s _ _ h rfl nofun))
  · exact K.refuse h _

theorem stop (h : P s) (p : ScheduleParams) : P (s.stop p) := by
  unfold State.stop
  split
  · exact K.stopNow h p
  · split
    · exact K.stopDrain h p
    · split
      · exact K.stopEntry h p _
      · exact K.refuse h _

theorem cancel (h : P s) (target : EntryId) : P (s.cancel target) := by
  unfold State.cancel
  split
  · exact K.refuse h _
  · rename_i e _
    split
    · exact K.refuse h _
    · have hreturned : P (s.returnStreams e) :=
        foldl h _ _ fun t ht n _ => K.put t n _ ht (Stream.returned_sameReports _ e)
      exact K.examineCommand (K.clears _ _ _ (K.same _ _ hreturned (.of rfl rfl rfl rfl rfl rfl)))

theorem setTrigger (h : P s) (line selection report : BitVec 8) : P (s.setTrigger line selection report) := by
  unfold State.setTrigger
  split
  · split
    · exact K.refuse h _
    · refine K.answerOk ?_ _
      exact K.same s _ h (.of rfl rfl rfl rfl rfl rfl)
  · exact K.refuse h _

theorem setGenerator (h : P s) (p : GeneratorParams) : P (s.setGenerator p) := by
  unfold State.setGenerator
  split
  · exact K.refuse h _
  · split
    · exact K.refuse h _
    · split
      · exact K.refuse h _
      · dsimp only
        split
        · exact K.refuse h _
        · refine K.answerOk ?_ _
          exact K.same s _ h (.of rfl rfl rfl rfl rfl rfl)

theorem enableGenerator (h : P s) (number : BitVec 8) : P (s.enableGenerator number) := by
  unfold State.enableGenerator
  split
  · exact K.refuse h _
  · split
    · exact K.refuse h _
    · split
      · exact K.refuse h _
      · refine K.answerOk ?_ _
        exact K.same s _ h (.of rfl rfl rfl rfl rfl rfl)

theorem quietBound (h : P s) (g : GenNo) : P (s.quietBound g) :=
  foldl h _ _ fun t ht _ _ => K.same t _ ht (.of rfl rfl rfl rfl rfl rfl)

theorem disableGenerator (h : P s) (number : BitVec 8) : P (s.disableGenerator number) := by
  unfold State.disableGenerator
  split
  · exact K.refuse h _
  · dsimp only
    split
    · exact K.refuse h _
    · split
      · exact K.refuse h _
      · refine K.answerOk ?_ _
        exact K.same _ _ (K.quietBound h _) (.of rfl rfl rfl rfl rfl rfl)

theorem executes {t : State} (h : P s) (k : s.Executes t) : P t := by
  cases k with
  | answers result => exact K.answerOk h _
  | refuses status => exact K.refuse h _
  | setsGenerator p => exact K.setGenerator h p
  | enablesGenerator g => exact K.enableGenerator h g
  | disablesGenerator g => exact K.disableGenerator h g
  | opens p => exact K.openStream h p
  | closes n => exact K.closeStream h n
  | starts p => exact K.start h p
  | stops p => exact K.stop h p
  | cancels id => exact K.cancel h id
  | setsTrigger l sel rep => exact K.setTrigger h l sel rep

/-! ### Events -/

theorem loseStreams (h : P s) (g : GenNo) (p : Position) : P (s.loseStreams g p) := by
  unfold State.loseStreams
  refine foldl (K.takeOrder h) _ _ fun t ht n _ => ?_
  dsimp only
  split
  · exact K.settleStream (K.faults t n _ _ ht)
  · exact ht

theorem takeStreamLoss (h : P s) (g : GenNo) : P (s.takeStreamLoss g) := by
  unfold State.takeStreamLoss
  split
  · exact h
  · refine K.loseStreams ?_ _ _
    exact K.same s _ h (.of rfl rfl rfl rfl rfl rfl)

theorem takeScheduleLoss (h : P s) (g : GenNo) : P (s.takeScheduleLoss g) := by
  unfold State.takeScheduleLoss
  split
  · exact h
  · refine K.examineCommand (K.loseEntries ?_ g)
    exact K.same s _ h ⟨rfl, rfl, rfl, rfl, id, rfl⟩

theorem takeLosses (h : P s) (g : GenNo) : P (s.takeLosses g) :=
  foldl (foldl h _ _ fun _ ht _ _ => K.takeStreamLoss ht g) _ _ fun _ ht _ _ => K.takeScheduleLoss ht g

theorem offerTrigger (h : P s) (l : LineNo) (edge : Edge) : P (s.offerTrigger l edge) := by
  unfold State.offerTrigger
  dsimp only
  split
  · rename_i hfree
    exact K.same _ _ (K.accept s _ h hfree) (.of rfl rfl rfl rfl rfl rfl)
  · exact K.same s _ h (.of rfl rfl rfl rfl rfl rfl)

theorem makeDue (h : P s) (l : LineNo) : P (s.makeDue l) :=
  K.same s _ h ⟨rfl, rfl, rfl, rfl, fun ho => by rwa [State.offerable_sameOffer (s.makeDue_sameOffer l) rfl] at ho, rfl⟩

theorem acts {t : State} (h : P s) (k : s.Acts t) : P t := by
  cases k with
  | notifiesCommand index => exact K.same s _ h (.of rfl rfl rfl rfl rfl rfl)
  | notifiesStream n index => exact K.put s n _ h ⟨rfl, rfl, rfl, rfl, ⟨rfl, rfl⟩, id, .inl rfl⟩
  | releases index posted => exact K.same s _ h (.of rfl rfl rfl rfl rfl rfl)
  | losesReference g => exact K.losesReference s g h
  | losesStreams g => exact K.takeStreamLoss h g
  | losesEntries g => exact K.takeScheduleLoss h g
  | removes c => exact K.examineCommand (K.removes _ _ _ _ (K.same s _ h ⟨rfl, rfl, rfl, rfl, id, rfl⟩))
  | makesDue l => exact K.makeDue h l
  | triggers l edge => exact K.offerTrigger (K.makeDue h l) l edge

/-! ### Ticks -/

theorem idlePeriod (h : P s) (n : StreamNo) : P (s.idlePeriod n) := K.same s _ h (.of rfl rfl rfl rfl rfl rfl)

theorem runTick (h : P s) (n : StreamNo) (p : Position) (bits : List Bool) : Q n (s.runTick n p bits) := by
  have := K.runs s n (s.stream n) p bits h rfl id
  rwa [State.putStream_stream] at this

theorem tickStream (h : P s) (bits : List Bool) (t : Position) (n : StreamNo) : P (s.tickStream bits t n) := by
  unfold State.tickStream
  dsimp only
  split
  · exact h
  · split
    · split
      · exact K.examineCommand (K.answerEntry _ _ _ (K.settle _ _ (K.runs s n _ t bits h rfl id)))
      · exact K.idlePeriod h n
    · exact K.idlePeriod h n
  all_goals try exact K.idlePeriod h n
  all_goals
    split
    · exact K.settleStream (K.stops _ _ _ _ _ (K.idlePeriod h n))
    · split
      · rename_i htail
        exact K.tails _ n (K.same s _ h (.of rfl rfl rfl rfl rfl rfl)) htail
      · exact K.settleStream (K.runTick h n t bits)

theorem tickGenerator (h : P s) (g : GenNo) (lanes : List (List Bool)) : P (s.tickGenerator g lanes) := by
  unfold State.tickGenerator
  refine foldl (K.takeOrder (K.same s _ h ?_)) _ _ fun _ ht n _ => K.tickStream ht _ _ n
  refine ⟨rfl, rfl, rfl, rfl, fun ho => ?_, rfl⟩
  have hsame := State.offerable_sameOffer (s := s) (fireEntries_sameOffer g (s.generator g).tick.position [] s.schedule.entries)
    (t := { s.putGenerator g (s.generator g).tick with schedule := { s.schedule with
      entries := fireEntries g (s.generator g).tick.position [] s.schedule.entries } }) rfl
  exact hsame.symm.trans ho

end State.KeptByDuties

/-! ### The streams stay settled -/

/-- Every stream is settled. -/
def State.AllSettled (s : State) : Prop := ∀ m, s.isSettled m = true

/-- A context as OPEN_STREAM leaves it: in IDLE, with no record, no report and no frame counted (R8). -/
structure Stream.Fresh (c : Stream) : Prop where
  state : c.state = .idle
  staging : c.staging = []
  pending : c.pendingReport = none
  fault : c.faultOwed = none
  stop : c.stopOwed = none
  counts : c.dataFrames = 0 ∧ c.gapFrames = 0 ∧ c.starvedFrames = 0

theorem openedStream_fresh {p : OpenParams} {c : Stream} (h : openedStream p = some c) : c.Fresh := by
  unfold openedStream at h
  split at h
  · dsimp only at h
    split at h
    · cases h
      exact ⟨rfl, rfl, rfl, rfl, rfl, rfl, rfl, rfl⟩
    · cases h
  · cases h

theorem Stream.Fresh.rests {c : Stream} {b : Bool} (h : c.Fresh) : c.Rests b where
  fault := h.fault
  head := by rw [h.staging]; exact nofun
  stop := h.stop
  drain := by simp [Stream.drainComplete, h.state]
  ends := by rw [h.state]; exact nofun

namespace State.AllSettled

variable {s : State}

theorem put (h : s.AllSettled) {n : StreamNo} {d : Stream} (hd : (s.stream n).SameReports d) :
    (s.putStream n d).AllSettled := fun m => State.isSettled_putStream (h m) hd

/-- A change of what no stream's reports rest on. -/
theorem same (h : s.AllSettled) {t : State} (streams : t.streams = s.streams)
    (table : t.transfers.table = s.transfers.table) : t.AllSettled := fun m => by
  refine State.isSettled_of_same (h m) ?_ (State.noTransfers_congr table m)
  rw [State.stream, streams]
  rfl

/-- A stream that is examined is settled, and the others are as they were. -/
theorem settle {n : StreamNo} (h : ∀ m, m ≠ n → s.isSettled m = true) : (s.settle n).AllSettled := fun m => by
  rcases eq_or_ne n m with rfl | hne
  · exact s.settle_isSettled n
  · exact (settled_kept m).settle hne (h m hne.symm)

theorem examineCommand (h : s.AllSettled) : s.examineCommand.AllSettled := fun m => (settled_kept m).examineCommand (h m)

theorem settleStream {n : StreamNo} (h : ∀ m, m ≠ n → s.isSettled m = true) : (s.settleStream n).AllSettled :=
  (settle h).examineCommand

theorem answerEntry (h : s.AllSettled) (id : EntryId) (n : StreamNo) : (s.answerEntry id n).AllSettled :=
  fun m => (settled_kept m).scheduleOps.answerEntry id n (h m)

/-! ### The Command Unit -/

theorem cmdDonePlaced (h : s.AllSettled) (tell : Tell) : (s.cmdDonePlaced tell).AllSettled := by
  cases tell with
  | drain n =>
    refine settle fun m hm => ?_
    have hready : State.isSettled { s with command := { s.command with phase := .ready, inProgress := none, slot := none } } m
        = true := State.isSettled_of_same (h m) rfl rfl
    have hput := (settled_kept m).context _ n { s.stream n with drainAnswered := true } hready hm.symm
      (Stream.carries_links rfl id id)
    split
    · rename_i hroom
      exact (settled_kept m).placePending hm.symm hput (State.placeFree_of_roomFor (Bool.and_eq_true_iff.1 hroom).2)
    · exact hput
  | nobody => exact fun m => (settled_kept m).cmdDonePlaced _ nofun (h m)
  | entry id => exact fun m => (settled_kept m).cmdDonePlaced _ nofun (h m)

theorem produceCmdDone (h : s.AllSettled) (status : Status) (result : List Byte) (tell : Tell) :
    (s.produceCmdDone status result tell).AllSettled := by
  unfold State.produceCmdDone
  split
  · exact h
  · dsimp only
    split
    · exact cmdDonePlaced (s := s.accept _) (fun m => State.isSettled_of_same (h m) rfl rfl) tell
    · exact h.same rfl rfl

theorem offerLostFuel (k : Nat) (h : s.AllSettled) : (offerLostFuel k s).AllSettled := by
  induction k generalizing s with
  | zero => exact h
  | succ k ih =>
    unfold Machine.offerLostFuel
    split
    · exact h
    · split
      · exact ih (h.same rfl rfl)
      · exact h

theorem serve (h : s.AllSettled) (p : Producer) (hfree : s.placeFree = true) : (s.serve p).AllSettled := by
  unfold State.serve
  refine same (s := match p.val with | 0 => _ | 1 => _ | 2 => _ | k + 3 => _) ?_ rfl rfl
  split
  · split
    · exact cmdDonePlaced (s := s.accept _) (fun m => State.isSettled_of_same (h m) rfl rfl) _
    · exact h
  · split
    · exact examineCommand fun m => (settled_kept m).scheduleOps.offerSchedule ((settled_kept m).placeClosing _ _ (h m) hfree)
    · exact h
  · split
    · exact offerLostFuel 4 (h.same rfl rfl)
    · exact h
  · exact settleStream fun m hm => (settled_kept m).placePending hm.symm (h m) hfree

theorem grantPlacesFuel (k : Nat) (h : s.AllSettled) : (grantPlacesFuel k s).AllSettled := by
  induction k generalizing s with
  | zero => exact h
  | succ k ih =>
    unfold Machine.grantPlacesFuel
    split
    · rename_i hfree
      split
      · exact h
      · exact ih (h.serve _ hfree)
    · exact h

/-- In the tail of an ended run the STOP_DONE waits, so nothing can follow it. -/
theorem tailTick (h : s.AllSettled) (n : StreamNo) (htail : (s.stream n).inTail = true) :
    (s.modifyStream n Stream.tailTick).AllSettled := fun m => by
  rcases eq_or_ne n m with rfl | hne
  · have hpending : (s.stream n).pendingReport ≠ none := by
      intro hnone
      have hrests := ((State.isSettled_iff_rests s n).1 (h n)).resolve_left (not_not_intro hnone)
      simp [Stream.inTail, hnone, hrests.stop] at htail
    rw [State.isSettled_iff_rests, State.stream_modifyStream]
    refine .inl fun hnone => hpending ?_
    exact Option.map_eq_none_iff.1 hnone
  · exact State.isSettled_of_same (h m) (State.stream_modifyStream_of_ne s _ hne) rfl

end State.AllSettled

/-- Stream `n` apart, every stream is settled. -/
def State.SettledBut (n : StreamNo) (s : State) : Prop := ∀ m, m ≠ n → s.isSettled m = true

/-- Settled streams stay settled: the operations leave the other streams as they are and examine theirs. -/
theorem allSettled_kept : State.KeptByDuties State.AllSettled State.SettledBut where
  same := fun _ _ h k => h.same k.streams k.table
  accept := fun _ _ h _ m => State.isSettled_of_same (h m) rfl rfl
  put := fun _ _ _ h hd => h.put hd
  opens := fun s n _ c h _ hc m => by
    rcases eq_or_ne n m with rfl | hne
    · rw [State.isSettled_iff_rests, State.stream_putStream]
      exact .inr (openedStream_fresh hc).rests
    · exact State.isSettled_of_same (h m) (State.stream_putStream_of_ne s _ hne) rfl
  settle := fun _ _ h => State.AllSettled.settle h
  changes := fun s _ _ h _ _ m hm => State.isSettled_of_same (h m) (State.stream_putStream_of_ne s _ hm.symm) rfl
  faults := fun _ _ _ _ h m hm => (settled_kept m).enterFaulted hm.symm _ _ (h m)
  stops := fun _ _ _ _ _ h m hm => (settled_kept m).enterStopping hm.symm _ _ _ (h m)
  runs := fun s _ _ p bits h _ _ m hm => (settled_keptByTick hm.symm).runTick p bits
    (State.isSettled_of_same (h m) (State.stream_putStream_of_ne s _ hm.symm) rfl)
  tails := fun _ n h htail => h.tailTick n htail
  answers := fun _ status result tell h => h.produceCmdDone status result tell
  answerEntry := fun _ id n h => h.answerEntry id n
  removes := fun _ id n reason h m => (settled_kept m).scheduleOps.removeFromEntry id n reason (h m)
  clears := fun _ id reason h m => (settled_kept m).scheduleOps.clearEntry id reason (h m)
  losesReference := fun s g h => by
    have hquiet : (s.quietBound g).AllSettled := by
      rw [State.quietBound_eq]
      exact h.same rfl rfl
    exact State.AllSettled.offerLostFuel 4 (hquiet.same rfl rfl)

end Sys2Proof.Machine
end

section
/-! Every step outside a freeze leaves the streams settled: the grants that close it, and each row. -/

namespace Sys2Proof.Machine

/-! ### The grants -/

theorem Stream.apartFromGrants_reports {c d : Stream} (h : d.apartFromGrants = c.apartFromGrants) :
    d.pendingReport = c.pendingReport ∧ d.faultOwed = c.faultOwed ∧ d.stopOwed = c.stopOwed ∧ d.state = c.state
      ∧ d.drainLimit = c.drainLimit ∧ d.consumer = c.consumer
      ∧ d.staging.map (StagedRecord.apartFromGrants c.direction) = c.staging.map (StagedRecord.apartFromGrants c.direction) := by
  have hd := Stream.direction_of_apartFromGrants h
  have hs : d.staging.map (StagedRecord.apartFromGrants d.direction)
      = c.staging.map (StagedRecord.apartFromGrants c.direction) := by
    have k := congrArg Stream.staging h
    exact k
  rw [hd] at hs
  refine ⟨?_, ?_, ?_, ?_, ?_, ?_, hs⟩
  · have k := congrArg Stream.pendingReport h
    exact k
  · have k := congrArg Stream.faultOwed h
    exact k
  · have k := congrArg Stream.stopOwed h
    exact k
  · have k := congrArg Stream.state h
    exact k
  · have k := congrArg Stream.drainLimit h
    exact k
  · have k := congrArg Stream.consumer h
    exact k

theorem StagedRecord.apartFromGrants_status {d : Direction} {r r' : StagedRecord}
    (h : r'.apartFromGrants d = r.apartFromGrants d) :
    r'.invalid = r.invalid ∧ r'.finished = r.finished ∧ r'.failed = r.failed ∧ r'.retired = r.retired := by
  cases d <;> simp_all [StagedRecord.apartFromGrants]

/-- A record that does not retire still does not with fewer transfers gone. -/
theorem Stream.retireStatus_none {c d : Stream} {b b' : Bool} {r r' : StagedRecord} (hs : d.state = c.state)
    (hb : b' = true → b = true) (hi : r'.invalid = r.invalid) (hf : r'.finished = r.finished)
    (h : c.retireStatus b r = none) : d.retireStatus b' r' = none := by
  rw [Stream.retireStatus_congr hs]
  unfold Stream.retireStatus at h ⊢
  rw [hi, hf]
  cases b' with
  | true =>
    rw [hb rfl] at h
    split_ifs at h ⊢ <;> simp_all
  | false => split_ifs at h ⊢ <;> simp_all

/-- Grants leave nothing new to report. -/
theorem Stream.grantsTo.rests {c d : Stream} {b b' : Bool} (h : c.grantsTo d) (hb : b' = true → b = true)
    (hc : c.Rests b) : d.Rests b' := by
  obtain ⟨hapart, hcounts, _⟩ := h
  obtain ⟨_, hfault, hstop, hstate, hlimit, hconsumer, hstaging⟩ := Stream.apartFromGrants_reports hapart
  have hempty : d.staging.isEmpty = c.staging.isEmpty := by
    have := congrArg List.isEmpty hstaging
    simpa only [List.isEmpty_map] using this
  refine ⟨hfault ▸ hc.fault, fun r' hr' hout hret => ?_, hstop ▸ hc.stop, ?_, fun he hnil => ?_⟩
  · cases hcs : c.staging with
    | nil =>
      rw [hcs] at hstaging
      rw [List.map_eq_nil_iff.1 hstaging] at hr'
      cases hr'
    | cons r rest =>
      cases hds : d.staging with
      | nil =>
        rw [hds] at hr'
        cases hr'
      | cons x rest' =>
        rw [hds] at hr' hstaging hcounts
        rw [hcs] at hstaging hcounts
        obtain rfl : x = r' := Option.some.inj hr'
        obtain ⟨hi, hf, _, hr⟩ := StagedRecord.apartFromGrants_status (List.cons.inj hstaging).1
        have hle : r.outstanding ≤ x.outstanding := by
          cases hcounts with
          | cons hle _ => exact hle.1
        refine Stream.retireStatus_none hstate hb hi hf (hc.head r (by rw [hcs]; rfl) (by omega) (hr ▸ hret))
  · have := hc.drain
    rwa [Stream.drainComplete, ← hempty, ← hlimit, ← hconsumer, ← hstate] at this
  · have hnil : c.staging = [] := by
      rw [hnil] at hempty
      exact List.isEmpty_iff.1 hempty.symm
    cases b' with
    | false => rfl
    | true => exact (hb rfl).symm.trans (hc.ends (hstate ▸ he) hnil)

theorem State.noTransfers_finish {s : State} {n : StreamNo} (h : s.finish.noTransfers n = true) : s.noTransfers n = true := by
  obtain ⟨_, htransfers, hstreams, _⟩ := s.finish_grantsTo
  have hcount (r : Requester) (k : s.finish.outstanding r = 0) : s.outstanding r = 0 := by
    by_contra hne
    exact State.keeps_outstanding ⟨htransfers, hstreams⟩ r hne k
  simp only [State.noTransfers, Bool.and_eq_true, beq_iff_eq] at h ⊢
  exact ⟨hcount _ h.1, hcount _ h.2⟩

theorem State.AllSettled.finish {s : State} (h : s.AllSettled) : s.finish.AllSettled := fun n => by
  rw [State.isSettled_iff_rests]
  obtain ⟨_, _, hstreams, _⟩ := s.finish_grantsTo
  obtain ⟨hpending, _⟩ := Stream.apartFromGrants_reports (hstreams n).1
  rw [hpending]
  exact ((State.isSettled_iff_rests s n).1 (h n)).imp_right ((hstreams n).rests State.noTransfers_finish)

/-! ### The kinds of the reports -/

theorem Stream.keepsReports_of {c d : Stream} (hp : d.pendingReport = c.pendingReport) (hf : d.faultOwed = c.faultOwed)
    (hs : d.stopOwed = c.stopOwed) (hd : d.state = .closed → c.state = .closed) : c.keepsReports d := fun h => by
  rw [Stream.reportConsistent_iff] at h ⊢
  rw [hp, hf, hs]
  exact ⟨h.1, h.2.1, fun k => h.2.2 (hd k)⟩

theorem Stream.Completes.reports {t : Transfer} {c d : Stream} (h : c.Completes t d) :
    d.pendingReport = c.pendingReport ∧ d.faultOwed = c.faultOwed ∧ d.stopOwed = c.stopOwed ∧ d.state = c.state
      ∧ d.drainAnswered = c.drainAnswered := by
  cases h with
  | read data _ =>
    unfold Stream.completeRead
    split
    · dsimp only
      split <;> exact ⟨rfl, rfl, rfl, rfl, rfl⟩
    · exact ⟨rfl, rfl, rfl, rfl, rfl⟩
  | failedRead _ => unfold Stream.failRead; split <;> exact ⟨rfl, rfl, rfl, rfl, rfl⟩
  | write ok _ => unfold Stream.finishWrite; split <;> exact ⟨rfl, rfl, rfl, rfl, rfl⟩
  | arrives r _ => unfold Stream.recordArrives; split <;> exact ⟨rfl, rfl, rfl, rfl, rfl⟩
  | nothing => exact ⟨rfl, rfl, rfl, rfl, rfl⟩

theorem Stream.Ticks.keepsReports {c d : Stream} (h : c.Ticks d) : c.keepsReports d := by
  cases h with
  | begins t harmed => exact Stream.keepsReports_of rfl rfl rfl nofun
  | starves => exact Stream.keepsReports_of rfl rfl rfl id
  | recovers =>
    refine Stream.keepsReports_of rfl rfl rfl fun h => ?_
    simp only [Stream.recovered] at h
    split at h
    · cases h
    · exact h
  | passes t p rest _ => exact Stream.keepsReports_of rfl rfl rfl id
  | assigns t r frame _ _ _ _ => exact Stream.keepsReports_of rfl rfl rfl id
  | tails =>
    intro h
    rw [Stream.reportConsistent_iff] at h ⊢
    obtain ⟨hstop, hpending, hclosed⟩ := h
    refine ⟨hstop, fun r hr hdrain => ?_, fun hc => ?_⟩
    · obtain ⟨x, hx, rfl⟩ := Option.mem_map.1 hr
      split at hdrain
      · rfl
      · exact hpending x hx hdrain
    · obtain ⟨hnone, hrest⟩ := hclosed hc
      exact ⟨Option.map_eq_none_iff.2 hnone, hrest⟩

/-- The reports of every stream are of their kinds. -/
def State.ReportsConsistent (s : State) : Prop := ∀ n, (s.stream n).reportConsistent = true

theorem State.ReportsConsistent.same {s t : State} (h : s.ReportsConsistent) (streams : t.streams = s.streams) :
    t.ReportsConsistent := fun n => by
  rw [State.stream, streams]
  exact h n

theorem State.ReportsConsistent.put {s : State} (h : s.ReportsConsistent) {n : StreamNo} {d : Stream}
    (hd : (s.stream n).keepsReports d) : (s.putStream n d).ReportsConsistent := fun m => by
  rcases eq_or_ne n m with rfl | hne
  · rw [State.stream_putStream]
    exact hd (h n)
  · rw [State.stream_putStream_of_ne s _ hne]
    exact h m

theorem Stream.Fresh.reportConsistent {c : Stream} (h : c.Fresh) : c.reportConsistent = true := by
  rw [Stream.reportConsistent_iff, h.stop, h.pending, h.fault]
  exact ⟨nofun, nofun, fun _ => ⟨rfl, rfl, rfl⟩⟩

theorem reportsConsistent_kept : State.KeptByRows State.ReportsConsistent where
  accept := fun _ _ h _ => h.same rfl
  context := fun _ _ _ h _ hd => h.put hd.reports
  close := fun _ _ h _ _ => h.put fun _ => rfl
  port := fun _ _ _ h _ => h.same rfl
  discard := fun s n h _ => h.same (s.discardReads_streams n)
  command := fun _ _ h _ => h.same rfl
  schedule := fun _ _ h _ => h.same rfl
  frame := fun _ _ h k => h.same k.streams
  ticks := fun _ _ _ h hd => h.put hd.keepsReports
  opens := fun _ _ _ _ h _ hc => h.put fun _ => (openedStream_fresh hc).reportConsistent
  generator := fun _ _ _ h _ => h.same rfl
  generatorTicks := fun _ _ h => h.same rfl
  adds := fun _ _ h _ _ _ _ _ => h.same rfl
  dues := fun _ _ h => h.same rfl
  reset := fun n => by
    rw [State.reset_stream]
    rfl
  blocks := fun _ _ h k => h.same k.streams
  finish := fun s h n => by
    obtain ⟨hp, hf, hs, hd, _⟩ := Stream.apartFromGrants_reports (s.finish_grantsTo.2.2.1 n).1
    exact Stream.keepsReports_of hp hf hs (fun k => hd ▸ k) (h n)
  freed := fun _ _ _ h _ => h.same rfl
  completes := fun s e t n d h _ _ hd => by
    obtain ⟨hp, hf, hs, hstate, _⟩ := hd.reports
    have hfreed : (s.putTransfer e none).ReportsConsistent := h.same rfl
    exact hfreed.put (Stream.keepsReports_of hp hf hs fun k => hstate ▸ k)
  active := fun _ _ h => h.same rfl

/-! ### The rows -/

/-- A frozen engine reports nothing (R190). -/
def State.Frozen (s : State) : Prop := s.engine.state = .halted ∨ s.engine.state = .quiescing

theorem State.settled_iff (s : State) : s.settled = true ↔ s.ReportsConsistent ∧ (s.Frozen ∨ s.AllSettled) := by
  have hstreams (p : StreamNo → Bool) : Config.streams.all p = true ↔ ∀ n, p n = true := by
    rw [List.all_eq_true]
    exact ⟨fun h n => h n (mem_configStreams n), fun h n _ => h n⟩
  rw [State.settled, hstreams]
  simp only [Bool.and_eq_true, Bool.or_eq_true, beq_iff_eq, State.Frozen, State.AllSettled, State.ReportsConsistent,
    forall_and, forall_or_left]

theorem State.noTransfers_freed {s : State} {e : TransferId} {t : Transfer} (h : s.transfer e = some t) (n : StreamNo)
    (hd : t.requester ≠ .streamData n) (hr : t.requester ≠ .streamRecord n) :
    (s.putTransfer e none).noTransfers n = s.noTransfers n := by
  have hdata := State.outstanding_freed h (.streamData n)
  have hrecord := State.outstanding_freed h (.streamRecord n)
  rw [beq_false_of_ne hd] at hdata
  rw [beq_false_of_ne hr] at hrecord
  rw [State.noTransfers, State.noTransfers, ← hdata, ← hrecord]
  rfl

/-- Freeing an entry leaves settled every stream that it does not belong to. -/
theorem State.AllSettled.freed {s : State} (h : s.AllSettled) {e : TransferId} {t : Transfer} (ht : s.transfer e = some t)
    (m : StreamNo) (hm : t.requester.stream? ≠ some m) : (s.putTransfer e none).isSettled m = true := by
  refine State.isSettled_of_same (h m) rfl (State.noTransfers_freed ht m ?_ ?_)
  · rintro hr
    exact hm (by rw [hr]; rfl)
  · rintro hr
    exact hm (by rw [hr]; rfl)

end Sys2Proof.Machine
end

section
/-! Every step outside a freeze leaves the streams settled: each row, and O58. -/

namespace Sys2Proof.Machine

/-- Outside a freeze every stream is settled. -/
def State.Reported (s : State) : Prop := s.Frozen ∨ s.AllSettled

namespace State.Reported

variable {s t : State}

theorem same (h : s.Reported) (engine : t.engine.state = s.engine.state) (streams : t.streams = s.streams)
    (table : t.transfers.table = s.transfers.table) : t.Reported :=
  h.imp (fun k => by rwa [State.Frozen, engine]) (fun k => k.same streams table)

theorem settled (h : s.Reported) (ha : s.engine.state = .off ∨ s.engine.state = .loading ∨ s.engine.state = .active) :
    s.AllSettled := by
  refine h.resolve_left ?_
  rintro (k | k) <;> simp [k] at ha

theorem of_reset (h : t.streams = State.reset.streams) : t.Reported := by
  refine .inr fun n => ?_
  rw [State.isSettled_iff_rests, State.stream, h]
  have hclosed : State.reset.streams[n] = closedStream := State.reset_stream n
  rw [hclosed]
  exact .inr ⟨rfl, nofun, rfl, rfl, nofun⟩

theorem examineQuiesce (h : s.Frozen) : s.examineQuiesce.Reported := by
  unfold State.examineQuiesce
  split
  · exact of_reset rfl
  · exact .inl h

theorem takeQuiesceClaim (h : s.engine.state = .quiescing) : s.takeQuiesceClaim.Reported := by
  unfold State.takeQuiesceClaim
  split
  · exact .inl (.inr h)
  · exact examineQuiesce (.inr h)

theorem enterQuiescing (s : State) : s.enterQuiescing.Reported := by
  unfold State.enterQuiescing
  refine takeQuiesceClaim ?_
  split <;> rfl

theorem enterHalted (s : State) (cause : HaltCause) : (s.enterHalted cause).Reported := .inl (.inl rfl)

theorem enterLoading (h : s.AllSettled) : s.enterLoading.Reported := by
  unfold State.enterLoading
  dsimp only
  split
  · exact enterHalted _ _
  · refine .inr (State.AllSettled.finish ?_)
    exact h.same rfl rfl

theorem writeDeviceControl (h : s.Reported) (w : BitVec 32) : (s.writeDeviceControl w).Reported := by
  cases hw : wordReset w with
  | true =>
    rw [State.writeDeviceControl_reset hw]
    exact of_reset rfl
  | false =>
    rw [State.writeDeviceControl_eq hw]
    dsimp only
    split_ifs with hload hquiesce
    · have hoff : s.engine.state = .off := hload.2
      exact enterLoading ((h.settled (.inl hoff)).same rfl rfl)
    · exact enterQuiescing _
    · exact h.same rfl rfl rfl

/-- The ways a completion goes, for the reports: it finds the engine frozen, or it arrives outside a freeze. -/
theorem complete (h : s.Reported) (hengine : s.engineConsistent = true) (e : TransferId) (isFor : Transfer → Bool)
    (early handed : Transfer → State → State)
    (hearly : ∀ (t : Transfer) (u : State), u.engine.state = .quiescing → (early t u).engine.state = .quiescing)
    (hhanded : ∀ t, s.arrives e t = true → s.transfer e = some t → isFor t = true → s.AllSettled →
      (handed t (s.putTransfer e none)).finish.Reported) :
    (s.complete e isFor early handed).Reported := by
  refine State.complete_cases s e isFor early handed h ?_ ?_ ?_
  · intro t _ ht _ hm
    exact examineQuiesce (s := s.putTransfer e none) (State.settles_of_consistent hengine ht hm).2.2
  · intro t _ _ _ _ hq
    exact takeQuiesceClaim (s := (early t (s.putTransfer e none)).countEarly) (hearly t _ hq)
  · intro t ha ht hf
    exact hhanded t ha ht hf (h.settled (.inr (State.arrives_engine hengine ha).2))

theorem fatalError (s : State) (t : Transfer) (cause : HaltCause) (h : s.engine.state = .loading ∨ s.engine.state = .active) :
    (s.fatalError t cause).finish.Reported := by
  have hclaim : s.fatalError t cause = (s.recordFault t).settleTransfers.enterHalted cause := by
    rw [State.fatalError, State.fatalClaim, if_pos]
    have hs : (s.recordFault t).settleTransfers.engine = s.engine := rfl
    rw [hs]
    rcases h with h | h <;> simp [h]
  rw [hclaim, State.finish_enterHalted]
  exact enterHalted _ _

theorem fatalError_quiescing (s : State) (t : Transfer) (cause : HaltCause) (h : s.engine.state = .quiescing) :
    (s.fatalError t cause).engine.state = .quiescing := by
  rw [State.fatalError, State.fatalClaim, if_neg]
  · exact h
  · have : (s.recordFault t).settleTransfers.engine.state = .quiescing := h
    simp [this]

theorem loadRootBlock (s : State) (b : RootBlock) (h : s.AllSettled) : (s.loadRootBlock b).finish.Reported := by
  unfold State.loadRootBlock
  split
  · exact .inr h.finish
  · split
    · refine .inr (State.AllSettled.finish ?_)
      exact h.same rfl rfl
    · rw [State.finish_enterHalted]
      exact enterHalted _ _

theorem settled_accessError {n m : StreamNo} (hne : n ≠ m) (cause : FaultCause) (h : s.isSettled m = true) :
    (s.accessError n cause).isSettled m = true := by
  unfold State.accessError
  dsimp only
  split
  · exact (settled_kept m).enterFaulted hne _ _ h
  · exact h

/-- Every row leaves the streams reported. -/
theorem act (h : s.Reported) (hengine : s.engineConsistent = true) (k : RowAct s t) : t.Reported := by
  -- a transfer that is no stream's leaves them all settled
  have hfreed (e : TransferId) (r : Requester) (hr : r.stream? = none) (t : Transfer) (ht : s.transfer e = some t)
      (hf : t.isOf r = true) (hs : s.AllSettled) : (s.putTransfer e none).AllSettled := fun m =>
    hs.freed ht m (by rw [beq_iff_eq.1 hf, hr]; nofun)
  -- the other streams of a stream's transfer
  have hothers (e : TransferId) (t : Transfer) (n : StreamNo) (ht : s.transfer e = some t) (hn : t.requester.stream? = some n)
      (hs : s.AllSettled) (d : Stream) (m : StreamNo) (hm : m ≠ n) :
      ((s.putTransfer e none).putStream n d).isSettled m = true :=
    State.isSettled_of_same (hs.freed ht m (by rw [hn]; exact fun k => hm (Option.some.inj k).symm))
      (State.stream_putStream_of_ne _ _ hm.symm) rfl
  cases k with
  | command e record seq execute hexecute =>
    unfold State.takeCommand State.completeOk
    refine h.complete hengine _ _ _ _ (fun _ _ => id) fun t ha ht hf hs => .inr (State.AllSettled.finish ?_)
    refine allSettled_kept.executes ?_ (hexecute _)
    exact (hfreed e _ rfl t ht hf hs).same rfl rfl
  | posts e =>
    unfold State.completeOk
    refine h.complete hengine _ _ _ _ (fun _ _ => id) fun t ha ht hf hs => .inr (State.AllSettled.finish ?_)
    refine State.AllSettled.grantPlacesFuel _ ?_
    exact (hfreed e _ rfl t ht hf hs).same rfl rfl
  | completes e isFor effect hfor _ =>
    unfold State.completeStream State.completeOk
    refine h.complete hengine _ _ _ _ (fun _ _ => id) fun t ha ht hf hs => .inr (State.AllSettled.finish ?_)
    obtain ⟨n, hn⟩ := Option.isSome_iff_exists.1 (hfor t hf)
    rw [State.onStream_of_stream hn]
    exact State.AllSettled.settleStream (hothers e t n ht hn hs _)
  | fails e isFor cause effect hfor _ =>
    unfold State.failStream
    refine h.complete hengine _ _ _ _ (fun t u hu => ?_) fun t ha ht hf hs => .inr (State.AllSettled.finish ?_)
    · cases hn : t.requester.stream? with
      | none =>
        unfold State.onStream
        rw [hn]
        exact hu
      | some n =>
        rw [State.onStream_of_stream hn]
        have := (fails_opsTo u t n (effect t) cause).sameEngine.engine
        rw [this]
        exact hu
    · obtain ⟨n, hn⟩ := Option.isSome_iff_exists.1 (hfor t hf)
      rw [State.onStream_of_stream hn]
      refine State.AllSettled.settleStream fun m hm => settled_accessError hm.symm _ ?_
      rw [recordFault_modifyStream]
      exact State.isSettled_of_same (hothers e t n ht hn hs _ m hm) rfl rfl
  | fatal e r cause _ =>
    unfold State.completeFatal
    refine h.complete hengine _ _ _ _ (fun t u => fatalError_quiescing u t cause) fun t ha ht hf hs => ?_
    exact fatalError (s.putTransfer e none) t cause (State.arrives_engine hengine ha).2
  | root e b =>
    unfold State.completeOk
    refine h.complete hengine _ _ _ _ (fun _ _ => id) fun t ha ht hf hs => loadRootBlock _ _ ?_
    exact hfreed e _ rfl t ht hf hs
  | event t ha hacts =>
    exact .inr (allSettled_kept.acts (h.settled (.inr (.inr (State.active_of_isActive ha)))) hacts).finish
  | tick g lanes ha _ =>
    have hlosses := allSettled_kept.takeLosses (h.settled (.inr (.inr (State.active_of_isActive ha)))) g
    exact .inr (allSettled_kept.tickGenerator hlosses g lanes).finish
  | edge g _ m => exact h.same rfl rfl rfl
  | still t k _ _ => exact h.same (congrArg EngineControl.state k.engine) k.streams k.table
  | control w _ => exact h.writeDeviceControl w
  | rootPointer p _ => exact h.same rfl rfl rfl
  | pinDown => exact of_reset rfl
  | pinUp => exact h.same rfl rfl rfl

end State.Reported

end Sys2Proof.Machine

open Sys2Proof Sys2Proof.Machine

/-- Settles O58: each row leaves the streams it does not touch as they were, and examines those it touches. -/
theorem stepLeavesStreamsSettled : Obligations.StepLeavesStreamsSettled := by
  intro s t hengine hs h
  rw [State.settled_iff] at hs ⊢
  refine ⟨reportsConsistent_kept.step hs.1 h, ?_⟩
  rcases step_act s t h with rfl | ⟨u, hu, hact⟩
  · exact hs.2
  · refine State.Reported.act ?_ ?_ hact
    · rw [hu]
      exact State.Reported.same hs.2 rfl rfl rfl
    · rw [hu]
      exact hengine

end

section
/-! The law of a run (R4) through every step: its counts add up to the ticks since its start position. -/

namespace Sys2Proof.Machine

/-! ### The order in which the streams take a tick (log 2) -/

theorem nodup_named (o acc : List StreamNo) (h : acc.Nodup) :
    (o.foldl (fun acc n => if acc.contains n then acc else acc ++ [n]) acc).Nodup := by
  induction o generalizing acc with
  | nil => exact h
  | cons n o ih =>
    refine ih _ ?_
    dsimp only
    split
    · exact h
    · rename_i hn
      rw [List.contains_iff_mem] at hn
      exact List.nodup_append.2 ⟨h, List.nodup_singleton n, fun a ha b hb => by
        rw [List.mem_singleton.1 hb]
        rintro rfl
        exact hn ha⟩

theorem State.takeOrder_nodup (s : State) : s.takeOrder.1.Nodup := by
  unfold State.takeOrder
  split
  · exact (by decide : Config.streams.Nodup)
  · dsimp only
    refine List.nodup_append.2 ⟨nodup_named _ _ List.nodup_nil, (by decide : Config.streams.Nodup).filter _, ?_⟩
    rintro a ha b hb rfl
    have hfresh := (List.mem_filter.1 hb).2
    rw [Bool.not_eq_true', ← Bool.not_eq_true, List.contains_iff_mem] at hfresh
    exact hfresh ha

theorem State.mem_takeOrder (s : State) (n : StreamNo) : n ∈ s.takeOrder.1 := by
  unfold State.takeOrder
  split
  · exact mem_configStreams n
  · rename_i o _ _
    dsimp only
    by_cases h : n ∈ o.foldl (fun acc n => if acc.contains n then acc else acc ++ [n]) []
    · exact List.mem_append_left _ h
    · exact List.mem_append_right _ (List.mem_filter.2 ⟨mem_configStreams n, by simpa using h⟩)

/-- An operation applied once to each of several streams meets each as the others left it. -/
theorem State.foldl_visits (f : State → StreamNo → State) (hf : ∀ s n, State.Touches (onlyStream n) s (f s n))
    (Q : State → Prop) {m : StreamNo} (hQ : ∀ s n, n ≠ m → Q s → Q (f s n)) (l : List StreamNo) (hl : l.Nodup) (hm : m ∈ l)
    {s : State} (hs : Q s) :
    ∃ v, Q v ∧ State.Touches (· ≠ m) s v ∧ State.Touches (· ≠ m) (f v m) (l.foldl f s) := by
  obtain ⟨l₁, l₂, rfl⟩ := List.append_of_mem hm
  obtain ⟨h₁, h₂, hdisj⟩ := List.nodup_append.1 hl
  have hne₁ : ∀ n ∈ l₁, n ≠ m := fun n hn => hdisj n hn m (by simp)
  have hne₂ : ∀ n ∈ l₂, n ≠ m := fun n hn h => (List.nodup_cons.1 h₂).1 (h ▸ hn)
  rw [List.foldl_append, List.foldl_cons]
  refine ⟨l₁.foldl f s, State.foldl_kept f l₁ (fun t n hn ht => hQ t n (hne₁ n hn) ht) hs, ?_, ?_⟩
  · exact State.Touches.foldl f l₁ (fun t n hn => (hf t n).mono fun k hk => hk ▸ hne₁ n hn) s
  · exact State.Touches.foldl f l₂ (fun t n hn => (hf t n).mono fun k hk => hk ▸ hne₂ n hn) _

/-! ### The law -/

/-- The ticks that a context has counted in its run. -/
def Stream.counted (c : Stream) : BitVec 64 := c.dataFrames + c.gapFrames + c.starvedFrames

/-- The law of R4 for a context on generator `g`, at position `t`. -/
def Stream.LawOn (c : Stream) (g : GenNo) (t : Position) : Prop :=
  c.isRunning = true → c.generator = g ∧ ∃ p, c.startPosition = some p ∧ c.counted = t - p + 1

/-- No count of the context stands at its top. -/
def Stream.BelowTop (c : Stream) : Prop :=
  c.dataFrames ≠ BitVec.allOnes 64 ∧ c.gapFrames ≠ BitVec.allOnes 64 ∧ c.starvedFrames ≠ BitVec.allOnes 64

theorem Stream.LawOn.congr {c d : Stream} {g : GenNo} {t : Position} (h : c.LawOn g t)
    (running : d.isRunning = true → c.isRunning = true) (generator : d.generator = c.generator)
    (start : d.startPosition = c.startPosition) (counted : d.counted = c.counted) : d.LawOn g t := fun hd => by
  rw [generator, start, counted]
  exact h (running hd)

/-- One tick more has been counted. -/
theorem Stream.LawOn.count {c d : Stream} {g : GenNo} {t : Position} (h : c.LawOn g t)
    (running : d.isRunning = true → c.isRunning = true) (generator : d.generator = c.generator)
    (start : d.startPosition = c.startPosition) (counted : d.counted = c.counted + 1) : d.LawOn g (t + 1) := fun hd => by
  obtain ⟨hg, p, hp, hc⟩ := h (running hd)
  refine ⟨generator.trans hg, p, start.trans hp, ?_⟩
  rw [counted, hc]
  ring

theorem Stream.Carries.law {c d : Stream} (hd : c.Carries d) {g : GenNo} {t : Position} (h : c.LawOn g t) :
    d.LawOn g t := by
  refine h.congr hd.running ?_ ?_ ?_ <;> rw [hd.body]
  rfl

theorem Stream.Carries.belowTop {c d : Stream} (hd : c.Carries d) (h : c.BelowTop) : d.BelowTop := by
  rw [hd.body]
  exact h

/-- The law of stream `m` is kept outside the counting of a tick. -/
theorem law_kept (m : StreamNo) (g : GenNo) (t : Position) :
    State.Kept (fun _ => True) (fun s => (s.stream m).LawOn g t) where
  accept := fun _ _ h _ => h
  context := fun s n d h _ hd => by
    rcases eq_or_ne n m with rfl | hne
    · rw [State.stream_putStream]
      exact hd.law h
    · rwa [State.stream_putStream_of_ne s _ hne]
  close := fun s n h _ _ => by
    rcases eq_or_ne n m with rfl | hne
    · rw [State.stream_putStream]
      exact nofun
    · rwa [State.stream_putStream_of_ne s _ hne]
  port := fun _ _ _ h _ => h
  discard := fun s n h _ => by
    rw [State.stream, State.discardReads_streams]
    exact h
  command := fun _ _ h _ => h
  schedule := fun _ _ h _ => h

/-! ### A tick of a stream -/

theorem raise_of_ne {k : Counter64} {x : BitVec 64} (h : x ≠ BitVec.allOnes 64) : raise k x = x + 1 := if_neg h

theorem Stream.countStarved_counted {c : Stream} (h : c.BelowTop) : c.countStarved.counted = c.counted + 1 := by
  show c.dataFrames + c.gapFrames + raise .starvedFrames c.starvedFrames = c.dataFrames + c.gapFrames + c.starvedFrames + 1
  rw [raise_of_ne h.2.2]
  ring

/-- A frame that moves counts as data or as gap. -/
theorem counted_moved {c : Stream} (h : c.BelowTop) (gap : Bool) :
    (if gap then c.dataFrames else raise .dataFrames c.dataFrames)
      + (if gap then raise .gapFrames c.gapFrames else c.gapFrames) + c.starvedFrames = c.counted + 1 := by
  rw [raise_of_ne h.1, raise_of_ne h.2.1, Stream.counted]
  cases gap <;> simp <;> ring

theorem Stream.LawOn.tail {c : Stream} {g : GenNo} {t : Position} (h : c.LawOn g t) (hbelow : c.BelowTop) :
    c.tailTick.LawOn g (t + 1) :=
  h.count id rfl rfl (Stream.countStarved_counted hbelow)

theorem zero_ne_top : (0 : BitVec 64) ≠ BitVec.allOnes 64 := by decide

theorem Stream.running_of_recovered (c : Stream) (h : c.recovered.isRunning = true) : c.isRunning = true := by
  cases hs : c.state <;> simp_all [Stream.recovered, Stream.isRunning]

theorem Stream.beginRun_law (c : Stream) (t : Position) : (c.beginRun (t + 1)).LawOn c.generator t := fun _ => by
  refine ⟨rfl, _, rfl, ?_⟩
  show (0 : BitVec 64) + 0 + 0 = t - (t + 1) + 1
  ring

namespace State

variable {s : State} {n : StreamNo} {g : GenNo} {t : Position}

theorem endStarveRun_law (p : Position) (h : (s.stream n).LawOn g t) : ((s.endStarveRun n p).stream n).LawOn g t := by
  unfold State.endStarveRun
  dsimp only
  rw [State.stream_modifyStream]
  have hnotice : ((if (s.stream n).starveRun != 0 then s.offerStarveEnd n p (s.stream n).starveRun else s).stream n).LawOn g t := by
    split
    · exact (law_kept n g t).offerStarveEnd trivial _ _ h
    · exact h
  exact hnotice.congr (Stream.running_of_recovered _) rfl rfl rfl

theorem starvedTick_law (p : Position) (h : (s.stream n).LawOn g t) (hbelow : (s.stream n).BelowTop) :
    ((s.starvedTick n p).stream n).LawOn g (t + 1) := by
  have hcounted : ((s.modifyStream n Stream.countStarved).stream n).LawOn g (t + 1) := by
    rw [State.stream_modifyStream]
    exact h.count id rfl rfl (Stream.countStarved_counted hbelow)
  have K := law_kept n g (t + 1)
  unfold State.starvedTick
  dsimp only
  split
  · exact K.fault trivial _ _ hcounted
  · refine K.links trivial _ ?_ (Stream.starved_carries _)
    split
    · exact K.offerStarveBegin trivial _ hcounted
    · exact hcounted

theorem passFrame_law (p : Position) (x : Place) (rest : List Place) (h : (s.stream n).LawOn g t)
    (hbelow : (s.stream n).BelowTop) : ((s.passFrame n p x rest).stream n).LawOn g (t + 1) := by
  have hpassed : ((s.stream n).passed p x rest).LawOn g (t + 1) := h.count id rfl rfl (counted_moved hbelow x.gap)
  unfold State.passFrame
  dsimp only
  refine endStarveRun_law p ?_
  have hput : (((s.openPeriod n x.data).putStream n ((s.stream n).passed p x rest)).stream n).LawOn g (t + 1) := by
    rw [State.stream_putStream]
    exact hpassed
  split
  · exact (law_kept n g (t + 1)).markFirst trivial _ _ _ hput
  · exact hput

theorem outputTick_law (p : Position) (h : (s.stream n).LawOn g t) (hbelow : (s.stream n).BelowTop) :
    ((s.outputTick n p).stream n).LawOn g (t + 1) := by
  unfold State.outputTick
  dsimp only
  split
  · split
    · exact passFrame_law p _ _ h hbelow
    · exact starvedTick_law (s := s.openPeriod n _) p h hbelow
  · exact starvedTick_law (s := s.openPeriod n _) p h hbelow

theorem captureTick_law (p : Position) (frame : List Byte) (h : (s.stream n).LawOn g t) (hbelow : (s.stream n).BelowTop) :
    ((s.captureTick n p frame).stream n).LawOn g (t + 1) := by
  unfold State.captureTick
  dsimp only
  split
  · exact starvedTick_law p h hbelow
  · rename_i r _
    split
    · have hput : ((s.putStream n ((s.stream n).assigned p r frame)).stream n).LawOn g (t + 1) := by
        rw [State.stream_putStream]
        exact h.count id rfl rfl (counted_moved hbelow r.record.isGap)
      exact endStarveRun_law p ((law_kept n g (t + 1)).markFirst trivial _ _ _ hput)
    · exact starvedTick_law p h hbelow

theorem runTick_law (p : Position) (bits : List Bool) (h : (s.stream n).LawOn g t) (hbelow : (s.stream n).BelowTop) :
    ((s.runTick n p bits).stream n).LawOn g (t + 1) := by
  unfold State.runTick
  dsimp only
  split
  · exact outputTick_law p h hbelow
  · exact captureTick_law (s := s.openPeriod n []) p _ h hbelow

theorem not_running_law {c : Stream} (h : c.isRunning = false) (g : GenNo) (t : Position) : c.LawOn g t := fun hrun => by
  rw [h] at hrun
  cases hrun

/-- The tick at position `t + 1` counts in the run under way, or a run begins with it. -/
theorem tickStream_law (bits : List Bool) (hg : (s.stream n).generator = g) (h : (s.stream n).LawOn g t)
    (hbelow : (s.stream n).BelowTop) : ((s.tickStream bits (t + 1) n).stream n).LawOn g (t + 1) := by
  have K := law_kept n g (t + 1)
  have hidle (hs : (s.stream n).isRunning = false) : ((s.idlePeriod n).stream n).LawOn g (t + 1) := not_running_law hs g _
  unfold State.tickStream
  dsimp only
  split
  · rename_i hs
    exact not_running_law (by simp [Stream.isRunning, hs]) g _
  · rename_i hs
    have hnot : (s.stream n).isRunning = false := by simp [Stream.isRunning, hs]
    split
    · split
      · have hbegun : ((s.modifyStream n (fun c => c.beginRun (t + 1))).stream n).LawOn g t := by
          rw [State.stream_modifyStream, ← hg]
          exact Stream.beginRun_law _ t
        refine K.examineCommand (K.scheduleOps.answerEntry _ _ (K.settle trivial (runTick_law _ _ hbegun ?_)))
        rw [State.stream_modifyStream]
        exact ⟨zero_ne_top, zero_ne_top, zero_ne_top⟩
      · exact hidle hnot
    · exact hidle hnot
  case h_6 hclosed harmed hrunning hstarved hdraining =>
    exact hidle (by simpa [Stream.isRunning] using ⟨⟨hrunning, hstarved⟩, hdraining⟩)
  all_goals
    split
    · exact K.settleStream trivial (not_running_law (by rw [State.enterStopping_eq, State.stream_putStream]; rfl) g _)
    · split
      · rw [State.stream_modifyStream]
        exact Stream.LawOn.tail h hbelow
      · exact K.settleStream trivial (runTick_law _ _ h hbelow)

end State

/-! ### The rows -/

theorem State.runLaw_iff (s : State) : s.runLaw ↔ ∀ n, (s.stream n).LawOn (s.stream n).generator
    (s.generator (s.stream n).generator).position
      ∧ ((s.stream n).isRunning = true → (s.generator (s.stream n).generator).state ≠ .off) := by
  refine forall_congr' fun n => ⟨fun h => ⟨fun hr => ⟨rfl, (h hr).2⟩, fun hr => (h hr).1⟩, fun h hr => ⟨h.2 hr, (h.1 hr).2⟩⟩

/-- A change of one context keeps the law when the context keeps it. -/
theorem State.runLaw.put {s : State} (h : s.runLaw) {n : StreamNo} {d : Stream}
    (running : d.isRunning = true → (s.stream n).isRunning = true) (generator : d.generator = (s.stream n).generator)
    (start : d.startPosition = (s.stream n).startPosition) (counted : d.counted = (s.stream n).counted) :
    (s.putStream n d).runLaw := by
  rw [State.runLaw_iff] at h ⊢
  intro m
  rcases eq_or_ne n m with rfl | hne
  · rw [State.stream_putStream, generator]
    exact ⟨(h n).1.congr running generator start counted, fun hr => (h n).2 (running hr)⟩
  · rw [State.stream_putStream_of_ne s _ hne]
    exact h m

theorem State.runLaw.same {s t : State} (h : s.runLaw) (streams : t.streams = s.streams)
    (generators : t.timebase.generators = s.timebase.generators) : t.runLaw := by
  unfold State.runLaw State.stream State.generator at h ⊢
  rw [streams, generators]
  exact h

theorem Stream.Completes.run {t : Transfer} {c d : Stream} (h : c.Completes t d) :
    d.state = c.state ∧ d.generator = c.generator ∧ d.startPosition = c.startPosition ∧ d.counted = c.counted := by
  cases h with
  | read data _ =>
    unfold Stream.completeRead
    split
    · dsimp only
      split <;> exact ⟨rfl, rfl, rfl, rfl⟩
    · exact ⟨rfl, rfl, rfl, rfl⟩
  | failedRead _ => unfold Stream.failRead; split <;> exact ⟨rfl, rfl, rfl, rfl⟩
  | write ok _ => unfold Stream.finishWrite; split <;> exact ⟨rfl, rfl, rfl, rfl⟩
  | arrives r _ => unfold Stream.recordArrives; split <;> exact ⟨rfl, rfl, rfl, rfl⟩
  | nothing => exact ⟨rfl, rfl, rfl, rfl⟩

/-- A stream that does not run obeys the law. -/
theorem State.runLaw.putIdle {s : State} (h : s.runLaw) {n : StreamNo} {d : Stream} (hd : d.isRunning = false) :
    (s.putStream n d).runLaw := fun m hm => by
  rcases eq_or_ne n m with rfl | hne
  · rw [State.stream_putStream, hd] at hm
    cases hm
  · rw [State.stream_putStream_of_ne s _ hne] at hm ⊢
    exact h m hm

theorem runLaw_keptByEvents : State.KeptByEvents State.runLaw where
  accept := fun _ _ h _ => h
  context := fun _ _ _ h _ hd => by
    refine h.put hd.running ?_ ?_ ?_ <;> rw [hd.body]
    rfl
  close := fun _ _ h _ _ => h.putIdle rfl
  port := fun _ _ _ h _ => h
  discard := fun s n h _ => by
    rw [State.discardReads_eq]
    exact h
  command := fun _ _ h _ => h
  schedule := fun _ _ h _ => h
  frame := fun _ _ h k => h.same k.streams k.generators
  opens := fun _ _ _ _ h _ hc => h.putIdle (by simp [Stream.isRunning, (openedStream_fresh hc).state])
  generator := fun s g x h hx n hn => by
    obtain ⟨hstate, p, hp, hc⟩ := h n hn
    rcases eq_or_ne g (s.stream n).generator with rfl | hne
    · show ((s.putGenerator _ x).generator (s.stream n).generator).state ≠ _ ∧ ∃ p, _ ∧ _ = ((s.putGenerator _ x).generator (s.stream n).generator).position - p + 1
      rw [State.generator_putGenerator]
      cases hx with
      | configured source frequency divider lossWindow hoff _ => exact absurd hoff hstate
      | enabled hoff => exact absurd hoff hstate
      | disabled hheld => exact absurd ⟨n, rfl, hn⟩ hheld
      | lost => exact ⟨nofun, p, hp, hc⟩
      | edge _ m => exact ⟨hstate, p, hp, hc⟩
    · have hgen : (s.putGenerator g x).generator (s.stream n).generator = s.generator (s.stream n).generator :=
        State.generator_putGenerator_of_ne _ _ hne
      show ((s.putGenerator _ x).generator (s.stream n).generator).state ≠ _ ∧ ∃ p, _ ∧ _ = ((s.putGenerator _ x).generator (s.stream n).generator).position - p + 1
      rw [hgen]
      exact ⟨hstate, p, hp, hc⟩
  adds := fun _ _ h _ _ _ _ _ => h
  dues := fun _ _ h => h
  reset := fun n hn => by
    rw [State.reset_stream] at hn
    cases hn
  blocks := fun _ _ h k => h.same k.streams k.generators
  finish := fun s h n hn => by
    have hapart := (s.finish_grantsTo.2.2.1 n).1
    have hstate : (s.finish.stream n).state = (s.stream n).state := by
      have k := congrArg Stream.state hapart
      exact k
    have hstart : (s.finish.stream n).startPosition = (s.stream n).startPosition := by
      have k := congrArg Stream.startPosition hapart
      exact k
    have hgen : (s.finish.stream n).generator = (s.stream n).generator := by
      have k := congrArg Stream.generator hapart
      exact k
    have hcounted : (s.finish.stream n).counted = (s.stream n).counted := by
      have k := congrArg Stream.counted hapart
      exact k
    rw [Stream.isRunning_congr hstate] at hn
    rw [hgen, hstart, State.generator, s.finish_timebase]
    exact ⟨(h n hn).1, (h n hn).2.imp fun p hp => ⟨hp.1, hcounted.trans hp.2⟩⟩
  freed := fun _ _ _ h _ => h
  completes := fun s e t n d h _ _ hd => by
    obtain ⟨hstate, hgen, hstart, hcounted⟩ := hd.run
    have hfreed : (s.putTransfer e none).runLaw := h
    exact hfreed.put (fun hr => Stream.isRunning_congr hstate ▸ hr) hgen hstart hcounted
  active := fun _ _ h => h

/-! ### The claims ahead of a tick -/

/-- A loss claim touches the streams bound to its generator alone (R84). -/
theorem State.loseStreams_touches (s : State) (g : GenNo) (p : Position) :
    State.Touches (fun n => (s.stream n).generator = g) s.takeOrder.2 (s.loseStreams g p) := by
  unfold State.loseStreams
  refine State.Touches.foldl _ _ (fun t n hn => ?_) _
  have hbound : (s.stream n).generator = g := by
    have hn : ((s.takeOrder.2.stream n).generator == g) = true := (List.mem_filter.1 hn).2
    rw [State.takeOrder_snd] at hn
    exact beq_iff_eq.1 hn
  dsimp only
  split
  · exact ((t.fault_touches n _ _).mono fun m hm => hm ▸ hbound).trans ((State.examineCommand_touches _).any _)
  · exact .refl _ t

theorem State.takeStreamLoss_timebase (s : State) (g : GenNo) : (s.takeStreamLoss g).timebase = s.timebase := by
  unfold State.takeStreamLoss
  split
  · rfl
  · rw [(State.loseStreams_touches _ g _).timebase, State.takeOrder_snd]

theorem State.takeScheduleLoss_timebase (s : State) (g : GenNo) : (s.takeScheduleLoss g).timebase = s.timebase := by
  unfold State.takeScheduleLoss
  split
  · rfl
  · rw [(State.examineCommand_touches _).timebase, (State.loseEntries_touches _ g).timebase]

/-- The claims that are taken ahead of a tick leave the Timebase Unit as it is. -/
theorem State.takeLosses_timebase (s : State) (g : GenNo) : (s.takeLosses g).timebase = s.timebase := by
  unfold State.takeLosses
  refine State.foldl_kept (P := fun t => t.timebase = s.timebase) _ _
    (fun t _ _ ht => (t.takeScheduleLoss_timebase g).trans ht) ?_
  exact State.foldl_kept (P := fun t => t.timebase = s.timebase) _ _ (fun t _ _ ht => (t.takeStreamLoss_timebase g).trans ht) rfl

/-- No count of a stream stands at its top. -/
def State.countsBelowTop (s : State) : Prop := ∀ n, (s.stream n).BelowTop

theorem State.countsBelowTop.put {s : State} (h : s.countsBelowTop) {n : StreamNo} {d : Stream} (hd : d.BelowTop) :
    (s.putStream n d).countsBelowTop := fun m => by
  rcases eq_or_ne n m with rfl | hne
  · rwa [State.stream_putStream]
  · rw [State.stream_putStream_of_ne s _ hne]
    exact h m

theorem State.countsBelowTop.same {s t : State} (h : s.countsBelowTop) (streams : t.streams = s.streams) :
    t.countsBelowTop := fun n => by
  rw [State.stream, streams]
  exact h n

theorem countsBelowTop_keptByOps : State.KeptByOps State.countsBelowTop where
  accept := fun _ _ h _ => h
  context := fun _ n _ h _ hd => h.put (hd.belowTop (h n))
  close := fun _ _ h _ _ => h.put ⟨zero_ne_top, zero_ne_top, zero_ne_top⟩
  port := fun _ _ _ h _ => h
  discard := fun s n h _ => h.same (s.discardReads_streams n)
  command := fun _ _ h _ => h
  schedule := fun _ _ h _ => h
  frame := fun _ _ h k => h.same k.streams
  opens := fun _ _ _ _ h _ hc => by
    obtain ⟨hdata, hgap, hstarved⟩ := (openedStream_fresh hc).counts
    exact h.put ⟨hdata ▸ zero_ne_top, hgap ▸ zero_ne_top, hstarved ▸ zero_ne_top⟩
  generator := fun _ _ _ h _ => h
  adds := fun _ _ h _ _ _ _ _ => h
  dues := fun _ _ h => h

/-! ### The tick -/

theorem State.tickGenerator_timebase (s : State) (g : GenNo) (lanes : List (List Bool)) :
    (s.tickGenerator g lanes).timebase = (s.putGenerator g (s.generator g).tick).timebase := by
  unfold State.tickGenerator
  dsimp only
  rw [(State.Touches.foldl (p := fun _ => True) _ _ (fun t n _ => (State.tickStream_touches _ _ t n).mono fun _ _ => trivial) _).timebase,
    State.takeOrder_snd]

/-- What the tick of generator `g` makes of stream `m`: its own tick, on a state that agrees with the state before in the
stream, its lane and the Timebase Unit, when the stream is bound to `g`, and nothing otherwise. -/
theorem State.tickGenerator_stream (s : State) (g : GenNo) (lanes : List (List Bool)) (m : StreamNo) :
    ((s.stream m).generator ≠ g ∧ (s.tickGenerator g lanes).stream m = s.stream m)
      ∨ (s.stream m).generator = g ∧ ∃ v : State, v.stream m = s.stream m
        ∧ (s.tickGenerator g lanes).stream m
          = (v.tickStream (lanes.getD m.val []) (nextPosition (s.generator g).position) m).stream m := by
  unfold State.tickGenerator
  dsimp only
  generalize hu : ({ s.putGenerator g (s.generator g).tick with schedule := _ } : State) = u
  have hstreams (n : StreamNo) : u.stream n = s.stream n := by
    rw [← hu]
    rfl
  have horder (n : StreamNo) : u.takeOrder.2.stream n = s.stream n := by
    rw [State.takeOrder_snd]
    exact hstreams n
  have htick (v : State) (n : StreamNo) :=
    State.tickStream_touches (lanes.getD n.val []) (s.generator g).tick.position v n
  by_cases hm : (s.stream m).generator = g
  · refine .inr ⟨hm, ?_⟩
    obtain ⟨v, _, hv, hfinal⟩ := State.foldl_visits _ htick (fun _ => True) (m := m) (fun _ _ _ _ => trivial)
      (u.takeOrder.1.filter fun n => (u.takeOrder.2.stream n).generator == g) (u.takeOrder_nodup.filter _)
      (List.mem_filter.2 ⟨u.mem_takeOrder m, by rw [horder]; exact beq_iff_eq.2 hm⟩) (s := u.takeOrder.2) trivial
    refine ⟨v, ?_, ?_⟩
    · rw [hv.stream m (not_not_intro rfl), horder]
    · exact hfinal.stream m (not_not_intro rfl)
  · refine .inl ⟨hm, ?_⟩
    rw [(State.Touches.foldl (p := (· ≠ m)) _ _ (fun v n hn => (htick v n).mono fun k hk => ?_) _).stream m
      (not_not_intro rfl), horder]
    rintro rfl
    have := (List.mem_filter.1 hn).2
    rw [horder] at this
    exact hm (hk ▸ beq_iff_eq.1 this)

/-- The tick of a RUNNING generator keeps the law. -/
theorem runLaw_tickGenerator {s : State} (h : s.runLaw) (hbelow : s.countsBelowTop) (g : GenNo)
    (hposition : (s.generator g).position ≠ BitVec.allOnes 64) (hrunning : (s.generator g).state = .running)
    (lanes : List (List Bool)) : (s.tickGenerator g lanes).runLaw := by
  have htimebase := s.tickGenerator_timebase g lanes
  have hgenerator (g' : GenNo) : (s.tickGenerator g lanes).generator g' = (s.putGenerator g (s.generator g).tick).generator g' := by
    rw [State.generator, htimebase]
    rfl
  rw [State.runLaw_iff] at h ⊢
  intro m
  rw [hgenerator]
  rcases s.tickGenerator_stream g lanes m with ⟨hm, hsame⟩ | ⟨hm, v, hv, htick⟩
  · rw [hsame, State.generator_putGenerator_of_ne _ _ (Ne.symm hm)]
    exact h m
  · have hlaw : ((s.tickGenerator g lanes).stream m).LawOn g ((s.generator g).position + 1) := by
      rw [htick, nextPosition, raise_of_ne hposition]
      refine State.tickStream_law _ (hv ▸ hm) ?_ (hv ▸ hbelow m)
      rw [hv]
      have := (h m).1
      rwa [hm] at this
    constructor
    · intro hrun
      obtain ⟨hg, hcount⟩ := hlaw hrun
      rw [hg, State.generator_putGenerator, Generator.tick, nextPosition, raise_of_ne hposition]
      exact ⟨rfl, hcount⟩
    · intro hrun
      rw [(hlaw hrun).1, State.generator_putGenerator]
      show (s.generator g).state ≠ .off
      rw [hrunning]
      nofun

end Sys2Proof.Machine

open Sys2Proof Sys2Proof.Machine

/-- Settles O57: outside the ticks no count and no position of a run changes, and each tick of a run raises one count. -/
theorem stepKeepsRunLaw : Obligations.StepKeepsRunLaw := by
  intro s t hs hbelow h
  refine runLaw_keptByEvents.stepOutsideTicks hs h fun u g lanes hu hcomplete hlaw => ?_
  have hgenerator : (u.takeLosses g).generator g = s.generator g := by
    rw [State.generator, State.takeLosses_timebase, hu.generators]
    rfl
  have hcounts : u.countsBelowTop := fun n => by
    rw [State.stream, hu.streams]
    exact hbelow.2 n
  refine runLaw_tickGenerator hlaw (countsBelowTop_keptByOps.takeLosses g hcounts) g ?_ ?_ lanes
  · rw [hgenerator]
    exact hbelow.1 g
  · rw [State.generator, State.takeLosses_timebase]
    simp only [Generator.completesTick, Bool.and_eq_true, beq_iff_eq] at hcomplete
    exact hcomplete.1

end

section
/-! While a place of the Event Holding List is free no producer waits (R150): each operation leaves it so, and the grants that
follow an event write make it so. -/

namespace Sys2Proof.Machine

/-! ### Nobody waits -/

/-- While a place is free, no producer outside `q` waits. -/
def State.QuietBut (s : State) (q : Producer → Prop) : Prop := s.placeFree = true → ∀ p, ¬q p → s.waits p = false

/-- While a place is free, no producer waits. -/
def State.Served (s : State) : Prop := s.QuietBut fun _ => False

/-- The free places and the waiting producers of `t` are among those of `s`. -/
structure State.WaitsNoMore (s t : State) : Prop where
  free : t.placeFree = true → s.placeFree = true
  slot : t.command.slot.isSome = true → s.command.slot.isSome = true
  offerable : t.offerableClosing.isSome = true → s.offerableClosing.isSome = true
  lost : t.timebase.lostReports = s.timebase.lostReports
  streams : ∀ m, (t.stream m).reportWaits = true → (s.stream m).reportWaits = true

theorem State.noneWaits_iff (s : State) : s.noneWaits = true ↔ s.Served := by
  have hall (q : Producer) : q ∈ producers := by
    fin_cases q <;> decide
  simp only [State.noneWaits, State.Served, State.QuietBut, Bool.or_eq_true, Bool.not_eq_true', List.all_eq_true,
    not_false_eq_true, forall_const, ← Bool.not_eq_true s.placeFree, ← imp_iff_not_or]
  exact ⟨fun h hf q => h hf q (hall q), fun h hf q _ => h hf q⟩

namespace State.Served

variable {s t : State}

theorem less (h : s.Served) (k : State.WaitsNoMore s t) : t.Served := fun hfree p _ => by
  have hs := h (k.free hfree)
  rw [Bool.eq_false_iff]
  revert p
  refine producer_cases (P := fun p => ¬False → t.waits p ≠ true) ?_ ?_ ?_ ?_
  · exact fun _ hw => Bool.eq_false_iff.1 (hs commandProducer id) (k.slot hw)
  · exact fun _ hw => Bool.eq_false_iff.1 (hs scheduleProducer id) (k.offerable hw)
  · intro _ hw
    rw [State.waits_timebaseProducer, k.lost] at hw
    exact Bool.eq_false_iff.1 (hs timebaseProducer id) hw
  · intro m _ hw
    rw [State.waits_streamProducer] at hw
    have := hs (streamProducer m) id
    rw [State.waits_streamProducer, k.streams m hw] at this
    cases this

theorem roomFor (h : s.Served) (hfree : s.placeFree = true) (p : Producer) : s.roomFor p = true :=
  (s.roomFor_iff p).2 ⟨hfree, fun q _ => h hfree q id⟩

/-- An event finds no room only with every place taken. -/
theorem full (h : s.Served) {p : Producer} (hroom : s.roomFor p = false) : s.placeFree = false := by
  rw [Bool.eq_false_iff] at hroom ⊢
  exact fun hfree => hroom (h.roomFor hfree p)

theorem of_full (h : s.placeFree = false) : s.Served := fun hfree => by
  rw [h] at hfree
  cases hfree

theorem accept (h : s.Served) (e : Event) : (s.accept e).Served :=
  h.less ⟨fun hf => by
    rw [State.placeFree_iff] at hf ⊢
    simp only [State.accept, List.length_append, List.length_singleton] at hf
    omega, id, id, rfl, fun _ => id⟩

theorem put (h : s.Served) {n : StreamNo} {d : Stream} (hd : d.reportWaits = true → (s.stream n).reportWaits = true) :
    (s.putStream n d).Served :=
  h.less ⟨id, id, id, rfl, fun m => by
    rcases eq_or_ne n m with rfl | hne
    · rw [State.stream_putStream]
      exact hd
    · rw [State.stream_putStream_of_ne s _ hne]
      exact id⟩

end State.Served

theorem Stream.reportWaits_of {c d : Stream} (hp : d.pendingReport = c.pendingReport)
    (hg : d.drainAnswered = true → c.drainAnswered = true) (h : d.reportWaits = true) : c.reportWaits = true := by
  simp only [Stream.reportWaits, Stream.reportGated, hp, Bool.and_eq_true, Bool.not_eq_true', Bool.and_eq_false_iff,
    Bool.not_eq_false'] at h ⊢
  exact ⟨h.1, h.2.imp_right hg⟩

theorem Stream.reportWaits_none {c : Stream} (h : c.pendingReport = none) : c.reportWaits = false := by
  simp [Stream.reportWaits, h]

/-! ### The Schedule Unit -/

/-- Before it offers what it has decided, the Schedule Unit alone may wait. -/
theorem State.Served.schedule {s : State} (h : s.Served) (x : ScheduleUnit) :
    ({ s with schedule := x } : State).QuietBut (· = scheduleProducer) := fun hfree p => by
  refine producer_cases (P := fun p => p ≠ scheduleProducer → State.waits { s with schedule := x } p = false) ?_ ?_ ?_ ?_ p
  · exact fun _ => h hfree commandProducer id
  · exact fun hp => absurd rfl hp
  · exact fun _ => h hfree timebaseProducer id
  · exact fun m _ => h hfree (streamProducer m) id

/-- A producer that no longer waits leaves nobody waiting. -/
theorem State.QuietBut.served {s : State} {p : Producer} (h : s.QuietBut (· = p)) (hp : s.waits p = false) : s.Served :=
  fun hfree r _ => by
    by_cases hr : r = p
    · rw [hr, hp]
    · exact h hfree r hr

theorem State.QuietBut.roomFor {s : State} {p : Producer} (h : s.QuietBut (· = p)) (hfree : s.placeFree = true) :
    s.roomFor p = true := (s.roomFor_iff p).2 ⟨hfree, h hfree⟩

theorem State.placeFree_accept {s : State} {e : Event} (h : (s.accept e).placeFree = true) : s.placeFree = true := by
  rw [State.placeFree_iff] at h ⊢
  simp only [State.accept, List.length_append, List.length_singleton] at h
  omega

theorem State.placeClosing_quiet {s : State} (h : s.QuietBut (· = scheduleProducer)) (e : ScheduleEntry) (ev : Event) :
    (s.placeClosing e ev).QuietBut (· = scheduleProducer) := fun hfree p => by
  have hs := h (State.placeFree_accept (e := ev) hfree)
  refine producer_cases (P := fun p => p ≠ scheduleProducer → (s.placeClosing e ev).waits p = false) ?_ ?_ ?_ ?_ p
  · exact hs commandProducer
  · exact fun hp => absurd rfl hp
  · exact hs timebaseProducer
  · exact fun m => hs (streamProducer m)

/-- The Schedule Unit offers its closing events until none is left that may be placed (R108). -/
theorem offerClosingFuel_served (k : Nat) {s : State} (h : s.QuietBut (· = scheduleProducer))
    (hk : s.schedule.entries.length ≤ k) : (offerClosingFuel k s).Served := by
  induction k generalizing s with
  | zero =>
    refine h.served ?_
    rw [State.waits_scheduleProducer, State.offerable_isSome, List.length_eq_zero_iff.1 (Nat.le_zero.1 hk)]
    cases s.schedule.offering.head? <;> rfl
  | succ k ih =>
    unfold offerClosingFuel
    split
    · rename_i hnone
      exact h.served (by rw [State.waits_scheduleProducer, hnone]; rfl)
    · rename_i e ev hoffer
      split
      · refine ih (State.placeClosing_quiet h e ev) (Nat.le_of_lt_succ (Nat.lt_of_lt_of_le ?_ hk))
        obtain ⟨hmem, _⟩ := State.offerableClosing_mem hoffer
        refine List.length_filter_lt_length_iff_exists.2 ⟨e, hmem, ?_⟩
        simp
      · rename_i hroom
        refine State.Served.of_full (Bool.eq_false_iff.2 fun hfree => hroom (h.roomFor hfree))

theorem State.QuietBut.offerSchedule {s : State} (h : s.QuietBut (· = scheduleProducer)) : s.offerSchedule.Served :=
  offerClosingFuel_served _ h le_rfl

namespace State.Served

variable {s : State}

theorem modifyEntry (h : s.Served) (entry : EntryId) {f : ScheduleEntry → ScheduleEntry}
    (hf : ∀ e : ScheduleEntry, e.SameOffer (f e)) : (s.modifyEntry entry f).Served := by
  have hsame : (s.modifyEntry entry f).offerableClosing.isSome = s.offerableClosing.isSome := by
    refine State.offerable_sameOffer (sameOffer_map _ fun e => ?_) rfl
    split
    · exact hf e
    · exact ⟨rfl, rfl, rfl⟩
  exact h.less ⟨id, id, hsame.symm.trans, rfl, fun _ => id⟩

theorem examineEntry (h : s.Served) (entry : EntryId) : (s.examineEntry entry).Served := by
  unfold State.examineEntry
  split
  · exact h
  · split
    · exact (h.schedule _).offerSchedule
    · exact h

theorem answerEntry (h : s.Served) (entry : EntryId) (n : StreamNo) : (s.answerEntry entry n).Served := by
  unfold State.answerEntry
  split
  · exact h
  · split
    · refine examineEntry (h.modifyEntry entry ?_) entry
      exact fun _ => ⟨rfl, rfl, rfl⟩
    · exact h

theorem removeFromEntry (h : s.Served) (entry : EntryId) (n : StreamNo) (reason : ClearReason) :
    (s.removeFromEntry entry n reason).Served := by
  unfold State.removeFromEntry
  split
  · exact h
  · split
    · refine examineEntry (h.modifyEntry entry ?_) entry
      exact fun _ => ⟨rfl, rfl, rfl⟩
    · exact h

theorem clearEntry (h : s.Served) (entry : EntryId) (reason : ClearReason) : (s.clearEntry entry reason).Served := by
  unfold State.clearEntry
  split
  · exact h
  · split
    · exact (h.schedule _).offerSchedule
    · exact h

/-! ### The reports of a stream -/

theorem handRemoval (h : s.Served) (n : StreamNo) (reason : ClearReason) : (s.handRemoval n reason).Served := by
  unfold State.handRemoval
  split
  · exact h
  · exact h.less ⟨id, id, id, rfl, fun _ => id⟩

theorem readsMarked (h : s.Served) (n : StreamNo) : (s.readsMarked n).Served := by
  unfold State.readsMarked
  split
  · rw [State.discardReads_eq]
    exact h.less ⟨id, id, id, rfl, fun _ => id⟩
  · exact h

end State.Served

theorem Stream.placed_pending (c : Stream) (e : Event) : (c.placed e).pendingReport = c.pendingReport := by
  unfold Stream.placed
  split
  · rfl
  · split <;> rfl
  · rfl

namespace State.Served

variable {s : State}

theorem streamArrived (h : s.Served) (n : StreamNo) : (s.streamArrived n).Served :=
  h.less ⟨id, id, id, rfl, fun _ => id⟩

theorem putNone (h : s.Served) {n : StreamNo} {d : Stream} (hd : d.pendingReport = none) : (s.putStream n d).Served :=
  h.put fun hw => by
    rw [Stream.reportWaits_none hd] at hw
    cases hw

/-- A report is accepted, is gated, or waits with every place taken. -/
theorem produce (h : s.Served) {n : StreamNo} {c : Stream} (hc : c.pendingReport = none) (e : Event) (drainRun : Bool) :
    ((s.putStream n c).produce n e drainRun).Served := by
  cases ha : s.accepts n c drainRun with
  | true =>
    have hput : ((s.accept e).putStream n (c.placed e)).Served := (h.accept e).putNone ((c.placed_pending e).trans hc)
    rw [State.produce_accepted e ha]
    dsimp only
    split
    · exact hput.streamArrived n
    · exact hput
  | false =>
    rw [State.produce_waits e ha]
    rcases Bool.and_eq_false_iff.1 ha with hgate | hroom
    · refine h.put fun hw => ?_
      simp [Stream.reportWaits, Stream.reportGated] at hw hgate
      simp [hgate] at hw
    · exact of_full (h.full hroom)

theorem enterIdle (h : s.Served) {n : StreamNo} (hp : (s.stream n).pendingReport = none) : (s.enterIdle n).Served :=
  (h.putNone (n := n) (d := (s.stream n).toIdle) hp).streamArrived n

theorem settleStep (h : s.Served) {t : State} {n : StreamNo} (ht : s.settleStep n = some t) : t.Served := by
  have hp : (s.stream n).pendingReport = none := by
    by_contra hp
    rw [State.settleStep_of_pending hp] at ht
    cases ht
  refine State.settleStep_cases ht ?_ ?_ ?_ ?_ ?_
  · intro _ _ _
    refine h.produce ?_ _ _
    exact hp
  · intro r st _
    rw [State.retireHead_eq]
    refine produce ?_ ?_ _ _
    · split
      · exact h.handRemoval n _
      · exact h
    · exact hp
  · intro _ _
    refine h.produce ?_ _ _
    exact hp
  · exact fun _ _ => h.put (Stream.reportWaits_of rfl id)
  · intro _ _
    by_cases hd : (s.stream n).destination = some .closed
    · rw [State.endStopping_closed hd]
      refine streamArrived (s := (s.putStream n closedStream).quietLane n) ?_ n
      exact (h.putNone (n := n) (d := closedStream) rfl).less ⟨id, id, id, rfl, fun _ => id⟩
    · by_cases ho : (s.stream n).stopOrigin = some .entry
      · rw [State.endStopping_entry hd ho]
        split
        · exact (h.enterIdle hp).answerEntry _ n
        · exact h.enterIdle hp
      · cases hr : (s.stream n).stopReported with
        | true =>
          rw [State.endStopping_reported hd ho hr]
          exact h.enterIdle hp
        | false =>
          rw [State.endStopping_reports hd ho hr]
          exact h.produce hp _ _

theorem settleFuel (k : Nat) (h : s.Served) (n : StreamNo) : (settleFuel k n s).Served := by
  induction k generalizing s with
  | zero => exact h
  | succ k ih =>
    unfold Machine.settleFuel
    split
    · exact h
    · rename_i ht
      exact ih (h.settleStep ht)

theorem settle (h : s.Served) (n : StreamNo) : (s.settle n).Served := h.settleFuel _ n

/-! ### The Command Unit -/

theorem ready (h : s.Served) :
    State.Served { s with command := { s.command with phase := .ready, inProgress := none, slot := none } } :=
  h.less ⟨id, nofun, id, rfl, fun _ => id⟩

end State.Served

/-! ### A stream whose gate opens -/

namespace State.QuietBut

variable {s : State} {n : StreamNo}

theorem putNone (h : s.QuietBut (· = streamProducer n)) {d : Stream} (hd : d.pendingReport = none) :
    (s.putStream n d).Served := by
  refine served (p := streamProducer n) (fun hfree p hp => ?_) ?_
  · rw [State.waits_putStream hp]
    exact h hfree p hp
  · rw [State.waits_streamProducer, State.stream_putStream]
    exact Stream.reportWaits_none hd

theorem accept (h : s.QuietBut (· = streamProducer n)) (e : Event) : (s.accept e).QuietBut (· = streamProducer n) :=
  fun hfree => h (State.placeFree_accept hfree)

/-- The placing of the report that alone waits. -/
theorem placePending (h : s.QuietBut (· = streamProducer n)) : (s.placePending n).Served := by
  unfold State.placePending
  split
  · rename_i hnone
    exact h.served (by rw [State.waits_streamProducer, Stream.reportWaits_none hnone])
  · rename_i r _
    rw [State.reportPlaced_eq, State.stream_modifyStream, State.modifyStream, State.putStream_putStream]
    dsimp only
    have hput := (h.accept r.event).putNone
      (d := Stream.placed { (s.accept r.event).stream n with pendingReport := none } r.event) (Stream.placed_pending _ _)
    split
    · exact hput.streamArrived n
    · exact hput

end State.QuietBut

namespace State.Served

variable {s : State}

theorem but (h : s.Served) (q : Producer → Prop) : s.QuietBut q := fun hfree p _ => h hfree p id

/-- A stream whose context changes is the only one that may wait. -/
theorem putBut (h : s.Served) (n : StreamNo) (d : Stream) : (s.putStream n d).QuietBut (· = streamProducer n) :=
  fun hfree p hp => by
    rw [State.waits_putStream hp]
    exact h hfree p id

/-- A CMD_DONE that is placed lets a creation's closing event and a drain's STOP_DONE be offered (R108, R137). -/
theorem cmdDonePlaced (h : s.Served) (tell : Tell) : (s.cmdDonePlaced tell).Served := by
  unfold State.cmdDonePlaced
  cases tell with
  | nobody => exact h.ready
  | entry entry => exact (h.ready.schedule _).offerSchedule
  | drain n =>
    refine settle ?_ n
    have hbut := h.ready.putBut n { s.stream n with drainAnswered := true }
    split
    · exact hbut.placePending
    · rename_i hno
      rw [Bool.not_eq_true, Bool.and_eq_false_iff] at hno
      rcases hno with hheld | hroom
      · refine h.ready.put fun hw => ?_
        have hgated : (s.stream n).reportGated = false := hheld
        simp only [Stream.reportWaits, Bool.and_eq_true] at hw
        show (s.stream n).reportWaits = true
        have hpending : (s.stream n).pendingReport.isSome = true := hw.1
        rw [Stream.reportWaits, hgated, hpending]
        rfl
      · exact of_full (Bool.eq_false_iff.2 fun hfree => Bool.noConfusion (hroom.symm.trans (hbut.roomFor hfree)))

theorem produceCmdDone (h : s.Served) (status : Status) (result : List Byte) (tell : Tell) :
    (s.produceCmdDone status result tell).Served := by
  unfold State.produceCmdDone
  split
  · exact h
  · dsimp only
    split
    · exact (h.accept _).cmdDonePlaced tell
    · rename_i hroom
      exact of_full (h.full (Bool.eq_false_iff.2 hroom))

/-! ### Entering a state, and the ticks -/

theorem enterFaulted (h : s.Served) (n : StreamNo) (cause : FaultCause) (p : Position) : (s.enterFaulted n cause p).Served := by
  rw [State.enterFaulted_eq]
  refine ((h.handRemoval n _).readsMarked n).put fun hw => ?_
  rw [State.readsMarked_stream, State.handRemoval_stream]
  rw [Stream.faultedWith, Stream.emptied_body] at hw
  exact hw

theorem enterStopping (h : s.Served) (n : StreamNo) (d : Destination) (o : Option StopOrigin) (a : Option EntryId) :
    (s.enterStopping n d o a).Served := by
  rw [State.enterStopping_eq]
  refine (h.readsMarked n).put fun hw => ?_
  rw [State.readsMarked_stream]
  rw [Stream.stoppingWith, Stream.emptied_body] at hw
  exact hw

theorem openPeriod (h : s.Served) (n : StreamNo) (frame : List Byte) : (s.openPeriod n frame).Served :=
  h.less ⟨id, id, id, rfl, fun _ => id⟩

theorem change (h : s.Served) {n : StreamNo} {d : Stream} (hp : d.pendingReport = (s.stream n).pendingReport)
    (hg : d.drainAnswered = true → (s.stream n).drainAnswered = true) : (s.putStream n d).Served :=
  h.put (Stream.reportWaits_of hp hg)

theorem offerStarveBegin (h : s.Served) (n : StreamNo) (t : Position) : (s.offerStarveBegin n t).Served := by
  unfold State.offerStarveBegin
  dsimp only
  split
  · exact (h.accept _).change rfl id
  · exact h.change rfl id

theorem offerStarveEnd (h : s.Served) (n : StreamNo) (t : Position) (k : BitVec 64) : (s.offerStarveEnd n t k).Served := by
  unfold State.offerStarveEnd
  dsimp only
  split
  · exact (h.accept _).change rfl id
  · exact h.change rfl id

theorem markFirst (h : s.Served) (n : StreamNo) (r : StagedRecord) (first : Bool) (t : Position) :
    (s.markFirst n r first t).Served := by
  unfold State.markFirst State.offerMark
  split
  · dsimp only
    split
    · exact (h.accept _).change rfl id
    · exact h.change rfl id
  · exact h

theorem endStarveRun (h : s.Served) (n : StreamNo) (t : Position) : (s.endStarveRun n t).Served := by
  unfold State.endStarveRun
  dsimp only
  refine change ?_ rfl id
  split
  · exact h.offerStarveEnd n t _
  · exact h

theorem starvedTick (h : s.Served) (n : StreamNo) (t : Position) : (s.starvedTick n t).Served := by
  have hcounted : (s.modifyStream n Stream.countStarved).Served := h.change rfl id
  unfold State.starvedTick
  dsimp only
  split
  · exact (hcounted.enterFaulted n _ _).settle n
  · refine change ?_ rfl id
    split
    · exact hcounted.offerStarveBegin n t
    · exact hcounted

theorem outputTick (h : s.Served) (n : StreamNo) (t : Position) : (s.outputTick n t).Served := by
  unfold State.outputTick
  dsimp only
  split
  · rename_i p rest _
    split
    · have hpassed : ((s.openPeriod n p.data).putStream n ((s.stream n).passed t p rest)).Served :=
        (h.openPeriod n p.data).change rfl id
      unfold State.passFrame
      dsimp only
      refine endStarveRun ?_ n t
      split
      · exact hpassed.markFirst n _ _ t
      · exact hpassed
    · exact (h.openPeriod n _).starvedTick n t
  · exact (h.openPeriod n _).starvedTick n t

theorem captureTick (h : s.Served) (n : StreamNo) (t : Position) (frame : List Byte) : (s.captureTick n t frame).Served := by
  unfold State.captureTick
  dsimp only
  split
  · exact h.starvedTick n t
  · rename_i r _
    split
    · have hassigned : (s.putStream n ((s.stream n).assigned t r frame)).Served := h.change rfl id
      exact (hassigned.markFirst n r _ t).endStarveRun n t
    · exact h.starvedTick n t

theorem runTick (h : s.Served) (n : StreamNo) (t : Position) (bits : List Bool) : (s.runTick n t bits).Served := by
  unfold State.runTick
  dsimp only
  split
  · exact h.outputTick n t
  · exact (h.openPeriod n []).captureTick n t _

theorem tailTick (h : s.Served) (n : StreamNo) : (s.modifyStream n Stream.tailTick).Served := by
  refine h.put fun hw => ?_
  have hpending : (s.stream n).tailTick.pendingReport.isSome = (s.stream n).pendingReport.isSome := Option.isSome_map
  have hgated : (s.stream n).tailTick.reportGated = (s.stream n).reportGated := by
    unfold Stream.reportGated Stream.tailTick
    dsimp only
    rw [Option.any_map]
    congr 2
    funext r
    split <;> rfl
  rwa [Stream.reportWaits, hpending, hgated] at hw

end State.Served

/-- The Timebase Unit offers its reports until none is left or every place is taken. -/
theorem offerLostFuel_served (k : Nat) {s : State} (h : s.QuietBut (· = timebaseProducer))
    (hk : s.placeFree = true → s.timebase.lostReports.length ≤ k) : (offerLostFuel k s).Served := by
  have hnone (hl : s.timebase.lostReports = []) : s.Served := h.served (by rw [State.waits_timebaseProducer, hl]; rfl)
  induction k generalizing s with
  | zero => exact fun hfree => hnone (List.length_eq_zero_iff.1 (Nat.le_zero.1 (hk hfree))) hfree
  | succ k ih =>
    unfold offerLostFuel
    split
    · rename_i hl
      exact hnone hl
    · rename_i r rest hl
      split
      · have hleft : ({ s with timebase := { s.timebase with lostReports := rest } }.accept
            (.referenceLost r.generator r.position)).QuietBut (· = timebaseProducer) := fun hfree p => by
          have hs := h (State.placeFree_accept hfree)
          refine producer_cases (P := fun p => p ≠ timebaseProducer → State.waits _ p = false) ?_ ?_ ?_ ?_ p
          · exact hs commandProducer
          · exact hs scheduleProducer
          · exact fun hp => absurd rfl hp
          · exact fun m => hs (streamProducer m)
        refine ih hleft (fun hfree => ?_) fun hl' => hleft.served (by rw [State.waits_timebaseProducer, hl']; rfl)
        have := hk (State.placeFree_accept hfree)
        rw [hl] at this
        exact Nat.le_of_succ_le_succ this
      · rename_i hroom
        exact State.Served.of_full (Bool.eq_false_iff.2 fun hfree => hroom (h.roomFor hfree))

namespace State.Served

variable {s : State}

/-- A REFERENCE_LOST is placed, or waits with every place taken. -/
theorem loseReference (h : s.Served) (g : GenNo) : (s.loseReference g).offerLost.Served := by
  unfold State.loseReference
  rw [State.quietBound_eq]
  refine offerLostFuel_served 4 (fun hfree p => ?_) fun hfree => ?_
  · refine producer_cases (P := fun p => p ≠ timebaseProducer → State.waits _ p = false) ?_ ?_ ?_ ?_ p
    · exact fun _ => h hfree commandProducer id
    · exact fun _ => h hfree scheduleProducer id
    · exact fun hp => absurd rfl hp
    · exact fun m _ => h hfree (streamProducer m) id
  · have hnone : s.timebase.lostReports = [] := by
      have := h hfree timebaseProducer id
      rwa [State.waits_timebaseProducer, Bool.not_eq_false', List.isEmpty_iff] at this
    show (s.timebase.lostReports ++ [_]).length ≤ 4
    rw [hnone]
    simp

/-- Whoever does not wait goes on so through every operation. -/
theorem kept : State.KeptByDuties State.Served fun _ => State.Served where
  same := fun s t h k => h.less ⟨fun hf => by rwa [State.placeFree, k.holding] at hf, fun hs => k.slot ▸ hs, k.offerable, k.lost,
    fun m hw => by rwa [State.stream, k.streams] at hw⟩
  accept := fun _ e h _ => h.accept e
  put := fun _ _ _ h hd => h.change hd.pending hd.gate
  opens := fun _ _ _ _ h _ hc => h.putNone (openedStream_fresh hc).pending
  settle := fun _ n h => h.settle n
  changes := fun _ _ _ h hp hg => h.change hp hg
  faults := fun _ n cause p h => h.enterFaulted n cause p
  stops := fun _ n d o a h => h.enterStopping n d o a
  runs := fun _ n _ p bits h hp hg => (h.change hp hg).runTick n p bits
  tails := fun _ n h _ => h.tailTick n
  answers := fun _ status result tell h => h.produceCmdDone status result tell
  answerEntry := fun _ entry n h => h.answerEntry entry n
  removes := fun _ entry n reason h => h.removeFromEntry entry n reason
  clears := fun _ entry reason h => h.clearEntry entry reason
  losesReference := fun _ g h => h.loseReference g

end State.Served

end Sys2Proof.Machine
end

section
/-! The command in progress has something to wait for (R120, R123), and the grants after an event write serve every producer
that waits (R150); with that, O56. -/

namespace Sys2Proof.Machine

/-! ### The command in progress -/

/-- A CMD_DONE that waits, and the phase COMPLETING, belong to a command in progress. -/
structure CommandUnit.Held (c : CommandUnit) : Prop where
  slot : c.slot.isSome = true → c.inProgress.isSome = true
  completing : c.phase = .completing → c.inProgress.isSome = true

theorem CommandUnit.Moves.held {c d : CommandUnit} (h : c.Moves d) (hc : c.Held) : d.Held := by
  cases h with
  | ready => exact ⟨nofun, nofun⟩
  | reports p tell e _ => exact ⟨fun _ => rfl, fun _ => rfl⟩
  | awaits result streams entries hp =>
    exact ⟨fun _ => Option.isSome_map.trans hp, fun _ => Option.isSome_map.trans hp⟩
  | takes p => exact ⟨fun _ => rfl, fun _ => rfl⟩
  | arrived n => exact ⟨hc.slot, hc.completing⟩
  | placed id => exact ⟨hc.slot, hc.completing⟩
  | waitsFor id => exact ⟨hc.slot, hc.completing⟩
  | indices base size producer consumer => exact ⟨hc.slot, hc.completing⟩

theorem Phase.completing_of_apartFromGrants {p q : Phase} (h : p.apartFromGrants = q.apartFromGrants) (hp : p = .completing) :
    q = .completing := by
  subst hp
  cases q <;> simp_all [Phase.apartFromGrants]

/-- The end of a step leaves the command in progress as it is. -/
theorem State.finish_command (s : State) : s.finish.command.slot = s.command.slot
    ∧ s.finish.command.inProgress = s.command.inProgress
    ∧ s.finish.command.phase.apartFromGrants = s.command.phase.apartFromGrants
    ∧ s.finish.command.streamWait = s.command.streamWait ∧ s.finish.command.entryWait = s.command.entryWait := by
  have k := congrArg State.command s.finish_apartFromGrants
  refine ⟨?_, ?_, ?_, ?_, ?_⟩
  · have h := congrArg CommandUnit.slot k
    exact h
  · have h := congrArg CommandUnit.inProgress k
    exact h
  · have h := congrArg CommandUnit.phase k
    exact h
  · have h := congrArg CommandUnit.streamWait k
    exact h
  · have h := congrArg CommandUnit.entryWait k
    exact h

theorem held_keptByRows : State.KeptByRows (fun s => s.command.Held) where
  accept := fun _ _ h _ => h
  context := fun _ _ _ h _ _ => h
  close := fun _ _ h _ _ => h
  port := fun _ _ _ h _ => h
  discard := fun s n h _ => by
    rw [State.discardReads_eq]
    exact h
  command := fun _ _ h hm => hm.held h
  schedule := fun _ _ h _ => h
  frame := fun _ _ h k => by
    rw [k.command]
    exact h
  ticks := fun _ _ _ h _ => h
  opens := fun _ _ _ _ h _ _ => h
  generator := fun _ _ _ h _ => h
  generatorTicks := fun _ _ h => h
  adds := fun _ _ h _ _ _ _ _ => h
  dues := fun _ _ h => h
  reset := ⟨nofun, nofun⟩
  blocks := fun _ _ h k => by
    rw [k.command]
    exact h
  finish := fun s h => by
    obtain ⟨hslot, hprogress, hphase, _⟩ := s.finish_command
    exact ⟨fun hs => hprogress ▸ h.slot (hslot ▸ hs),
      fun hp => hprogress ▸ h.completing (Phase.completing_of_apartFromGrants hphase hp)⟩
  freed := fun _ _ _ h _ => h
  completes := fun _ _ _ _ _ h _ _ _ => h
  active := fun _ _ h => ⟨h.slot, h.completing⟩

/-! ### The wait sets -/

theorem State.owesNoAnswer_iff (s : State) :
    s.owesNoAnswer = true ↔ (s.command.phase = .completing → s.command.streamWait = 0 → s.command.entryWait ≠ []) := by
  simp only [State.owesNoAnswer, Bool.or_eq_true, bne_iff_ne, Bool.not_eq_true', List.isEmpty_eq_false_iff, or_assoc]
  rw [← imp_iff_not_or, ← imp_iff_not_or]

theorem State.owesNoAnswer_of_phase {s : State} (h : s.command.phase ≠ .completing) : s.owesNoAnswer = true :=
  s.owesNoAnswer_iff.2 fun hp => absurd hp h

/-- A change that leaves the Command Unit owes no answer that was not owed. -/
theorem State.owesNoAnswer_congr {s t : State} (phase : t.command.phase = s.command.phase)
    (streams : t.command.streamWait = s.command.streamWait) (entries : t.command.entryWait = s.command.entryWait) :
    t.owesNoAnswer = s.owesNoAnswer := by
  rw [State.owesNoAnswer, State.owesNoAnswer, phase, streams, entries]

/-- With its CMD_DONE placed the Command Unit is READY (R123). -/
theorem State.cmdDonePlaced_phase (s : State) (tell : Tell) : (s.cmdDonePlaced tell).command.phase = .ready := by
  have offers : State.KeptBySchedule (fun t => t.command.phase = .ready) := ⟨fun _ _ _ h _ _ => h, fun _ _ h _ => h⟩
  unfold State.cmdDonePlaced
  cases tell with
  | nobody => rfl
  | entry id => exact offers.offerSchedule rfl
  | drain n =>
    have reports : State.KeptByReports n (fun t => t.command.phase = .ready) :=
      ⟨fun _ _ h _ => h, fun _ _ h _ => h, fun _ h _ _ => h, fun _ h _ => h, fun _ h => h,
        fun _ r h _ => offers.handRemoval n r h, fun _ id h _ => offers.answerEntry id n h⟩
    refine reports.settle ?_
    split
    · unfold State.placePending
      split
      · rfl
      · rw [State.reportPlaced_eq]
        dsimp only
        split <;> rfl
    · rfl

/-- A command that is answered is no longer in COMPLETING. -/
theorem State.produceCmdDone_phase {s : State} (status : Status) (result : List Byte) (tell : Tell)
    (h : s.command.inProgress.isSome = true) : (s.produceCmdDone status result tell).command.phase ≠ .completing := by
  unfold State.produceCmdDone
  split
  · rename_i hnone
    rw [hnone] at h
    cases h
  · dsimp only
    split
    · rw [State.cmdDonePlaced_phase]
      nofun
    · nofun

/-- A command is answered as soon as its wait sets are empty (R120). -/
theorem State.examineCommand_owes {s : State} (h : s.command.Held) : s.examineCommand.owesNoAnswer = true := by
  unfold State.examineCommand
  split
  · rename_i hwaits
    simp only [Bool.and_eq_true, beq_iff_eq] at hwaits
    have hp := h.completing hwaits.1.1
    split
    · rename_i hnone
      rw [hnone] at hp
      cases hp
    · exact State.owesNoAnswer_of_phase (State.produceCmdDone_phase _ _ _ hp)
  · rename_i hwaits
    rw [State.owesNoAnswer_iff]
    intro hp hs he
    exact hwaits (by simp [hp, hs, he])

/-- The Command Unit has something to wait for, and what waits of it belongs to a command. -/
def State.Waiting (s : State) : Prop := s.command.Held ∧ s.owesNoAnswer = true

theorem State.commandConsistent_iff (s : State) : s.commandConsistent = true ↔ s.Waiting := by
  have himp (a b : Bool) : (a.not || b) = true ↔ (a = true → b = true) := by cases a <;> simp
  rw [State.commandConsistent, Bool.and_eq_true, Bool.and_eq_true, ← Option.not_isSome, himp, Bool.or_eq_true, bne_iff_ne,
    ← imp_iff_not_or]
  exact ⟨fun ⟨⟨hs, hc⟩, ho⟩ => ⟨⟨hs, hc⟩, ho⟩, fun ⟨h, ho⟩ => ⟨⟨h.slot, h.completing⟩, ho⟩⟩

namespace State.Waiting

variable {s t : State}

theorem same (h : s.Waiting) (k : t.command = s.command) : t.Waiting :=
  ⟨k ▸ h.1, (State.owesNoAnswer_congr (congrArg _ k) (congrArg _ k) (congrArg _ k)).trans h.2⟩

theorem examined (h : s.command.Held) : s.examineCommand.Waiting :=
  ⟨held_keptByRows.examineCommand h, State.examineCommand_owes h⟩

/-! ### Commands -/

theorem answered (h : s.command.inProgress.isSome = true) (status : Status) (result : List Byte) (tell : Tell) :
    (s.produceCmdDone status result tell).owesNoAnswer = true :=
  State.owesNoAnswer_of_phase (State.produceCmdDone_phase status result tell h)

theorem nameStreams_command (s : State) (e : ScheduleEntry) : (s.nameStreams e).command = s.command := by
  unfold State.nameStreams
  refine State.foldl_kept (P := fun t => t.command = s.command) _ _ ?_ rfl
  exact fun _ _ _ h => h

theorem returnStreams_command (s : State) (e : ScheduleEntry) : (s.returnStreams e).command = s.command := by
  unfold State.returnStreams
  refine State.foldl_kept (P := fun t => t.command = s.command) _ _ ?_ rfl
  exact fun _ _ _ h => h

theorem createEntry (h : s.command.inProgress.isSome = true) (kind : EntryKind) (g : GenNo) (condition : Condition)
    (p : ScheduleParams) : (s.createEntry kind g condition p).owesNoAnswer = true := by
  unfold State.createEntry
  refine answered ?_ _ _ _
  rw [nameStreams_command]
  exact h

/-- After the execution of a command the Command Unit owes no answer. -/
theorem executes (hp : s.command.inProgress.isSome = true) (hs : s.command.Held) (k : s.Executes t) :
    t.owesNoAnswer = true := by
  have K := held_keptByRows
  have refused (status : Status) : (s.refuse status).owesNoAnswer = true := answered hp _ _ _
  cases k with
  | answers result => exact answered hp _ _ _
  | refuses status => exact refused status
  | setsGenerator p =>
    unfold State.setGenerator
    split
    · exact refused _
    · split
      · exact refused _
      · split
        · exact refused _
        · dsimp only
          split
          · exact refused _
          · refine answered ?_ _ _ _
            exact hp
  | enablesGenerator g =>
    unfold State.enableGenerator
    split
    · exact refused _
    · split
      · exact refused _
      · split
        · exact refused _
        · refine answered ?_ _ _ _
          exact hp
  | disablesGenerator g =>
    unfold State.disableGenerator
    split
    · exact refused _
    · dsimp only
      split
      · exact refused _
      · split
        · exact refused _
        · rw [State.quietBound_eq]
          refine answered ?_ _ _ _
          exact hp
  | opens p =>
    unfold State.openStream
    split
    · exact refused _
    · split
      · exact refused _
      · split
        · exact refused _
        · refine answered ?_ _ _ _
          exact hp
  | closes n =>
    unfold State.closeStream
    split
    · exact refused _
    · dsimp only
      split
      · exact refused _
      · exact State.examineCommand_owes (K.settle trivial (K.enterStopping trivial _ _ _ (K.awaitCompletion _ _ _ hp hs)))
  | starts p =>
    unfold State.start
    split
    · dsimp only
      split
      · exact refused _
      · exact createEntry hp _ _ _ _
    · exact refused _
  | stops p =>
    unfold State.stop
    split
    · unfold State.stopNow
      dsimp only
      split
      · exact refused _
      · split
        · exact refused _
        · refine State.examineCommand_owes (State.foldl_kept (P := fun t => t.command.Held) _ _
            (fun _ _ _ h => K.stopStream trivial h) ?_)
          refine State.foldl_kept (P := fun t => t.command.Held) _ _ (fun _ _ _ h => K.stopRemoval trivial h) ?_
          refine K.awaitCompletion _ _ _ ?_ (K.takeOrder hs)
          rw [State.takeOrder_snd]
          exact hp
    · split
      · unfold State.stopDrain
        split
        · rename_i n _
          dsimp only
          split
          · exact refused _
          · have offers : State.KeptBySchedule (fun t => t.command.inProgress.isSome = true) :=
              ⟨fun _ _ _ h _ _ => h, fun _ _ h _ => h⟩
            have reports : State.KeptByReports n (fun t => t.command.inProgress.isSome = true) :=
              ⟨fun _ _ h _ => h, fun _ _ h _ => h, fun _ h _ _ => h, fun _ h _ => h, fun _ h => h,
                fun _ r h _ => offers.handRemoval n r h, fun _ id h _ => offers.answerEntry id n h⟩
            refine answered (reports.settle ?_) _ _ _
            exact hp
        · exact refused _
      · split
        · unfold State.stopEntry
          split
          · exact refused _
          · dsimp only
            split
            · exact refused _
            · exact createEntry hp _ _ _ _
        · exact refused _
  | cancels target =>
    unfold State.cancel
    split
    · exact refused _
    · rename_i e _
      split
      · exact refused _
      · refine State.examineCommand_owes (K.scheduleOps.clearEntry _ _ (K.awaitCompletion _ _ _ ?_
          (K.returnStreams e (fun _ _ => trivial) hs)))
        rw [returnStreams_command]
        exact hp
  | setsTrigger l sel rep =>
    unfold State.setTrigger
    split
    · split
      · exact refused _
      · refine answered ?_ _ _ _
        exact hp
    · exact refused _

/-! ### Events and ticks -/

theorem foldl {α : Type} (h : s.Waiting) (f : State → α → State) (l : List α)
    (hf : ∀ t : State, t.Waiting → ∀ a ∈ l, (f t a).Waiting) : (l.foldl f s).Waiting :=
  State.foldl_kept f l (fun t a ha ht => hf t ht a ha) h

theorem takeOrder (h : s.Waiting) : s.takeOrder.2.Waiting := by
  rw [State.takeOrder_snd]
  exact h.same rfl

theorem settleStream (h : s.command.Held) (n : StreamNo) : (s.settleStream n).Waiting :=
  examined (held_keptByRows.settle trivial h)

theorem loseStreams (h : s.Waiting) (g : GenNo) (p : Position) : (s.loseStreams g p).Waiting := by
  unfold State.loseStreams
  refine foldl (takeOrder h) _ _ fun t ht n _ => ?_
  dsimp only
  split
  · exact examined (held_keptByRows.fault trivial _ _ ht.1)
  · exact ht

theorem takeStreamLoss (h : s.Waiting) (g : GenNo) : (s.takeStreamLoss g).Waiting := by
  unfold State.takeStreamLoss
  split
  · exact h
  · refine loseStreams ?_ _ _
    exact h.same rfl

theorem takeScheduleLoss (h : s.Waiting) (g : GenNo) : (s.takeScheduleLoss g).Waiting := by
  unfold State.takeScheduleLoss
  split
  · exact h
  · exact examined (held_keptByRows.scheduleOps.loseEntries g h.1)

theorem takeLosses (h : s.Waiting) (g : GenNo) : (s.takeLosses g).Waiting :=
  foldl (foldl h _ _ fun _ ht _ _ => ht.takeStreamLoss g) _ _ fun _ ht _ _ => ht.takeScheduleLoss g

theorem offerLostFuel_command (k : Nat) (s : State) : (offerLostFuel k s).command = s.command := by
  induction k generalizing s with
  | zero => rfl
  | succ k ih =>
    unfold offerLostFuel
    split
    · rfl
    · split
      · exact ih _
      · rfl

theorem acts (h : s.Waiting) (k : s.Acts t) : t.Waiting := by
  cases k with
  | notifiesCommand index => exact ⟨⟨h.1.slot, h.1.completing⟩, h.2⟩
  | notifiesStream n index => exact h.same rfl
  | releases index posted => exact h.same rfl
  | losesReference g =>
    refine h.same ((offerLostFuel_command 4 _).trans ?_)
    rw [State.loseReference, State.quietBound_eq]
    rfl
  | losesStreams g => exact h.takeStreamLoss g
  | losesEntries g => exact h.takeScheduleLoss g
  | removes c => exact examined (held_keptByRows.scheduleOps.removeFromEntry _ _ _ h.1)
  | makesDue l => exact h.same rfl
  | triggers l edge =>
    refine h.same ?_
    unfold State.offerTrigger
    dsimp only
    split <;> rfl

theorem tickStream (h : s.Waiting) (bits : List Bool) (t : Position) (n : StreamNo) : (s.tickStream bits t n).Waiting := by
  have K := held_keptByRows.tick n
  have hidle : (s.idlePeriod n).Waiting := h.same rfl
  have htail (frame : List Byte) : ((s.openPeriod n frame).modifyStream n Stream.tailTick).Waiting := h.same rfl
  unfold State.tickStream
  dsimp only
  split
  · exact h
  · rename_i harmed
    split
    · split
      · exact examined (K.scheduleOps.answerEntry _ _ (K.settle rfl (K.runTick t bits (K.ticks s _ h.1 (.begins t harmed)))))
      · exact hidle
    · exact hidle
  all_goals try exact hidle
  all_goals
    split
    · exact settleStream (K.enterStopping rfl _ _ _ hidle.1) n
    · split
      · exact htail _
      · exact settleStream (K.runTick t bits h.1) n

theorem tickGenerator (h : s.Waiting) (g : GenNo) (lanes : List (List Bool)) : (s.tickGenerator g lanes).Waiting := by
  unfold State.tickGenerator
  refine foldl (takeOrder ?_) _ _ fun _ ht n _ => ht.tickStream _ _ n
  exact h.same rfl

theorem finish (h : s.Waiting) : s.finish.Waiting := by
  obtain ⟨_, _, hphase, hstreams, hentries⟩ := s.finish_command
  refine ⟨held_keptByRows.finish s h.1, ?_⟩
  have ho := h.2
  rw [State.owesNoAnswer_iff] at ho ⊢
  rw [hstreams, hentries]
  exact fun hp => ho (Phase.completing_of_apartFromGrants hphase hp)

end State.Waiting

/-! ### The grants after an event write (R150) -/

theorem Fin.exists_shift (p q : Producer) : ∃ k ∈ producers, q + 1 + k = p := by
  revert p q
  decide

theorem State.nextWaiting_eq_none {s : State} (h : s.nextWaiting = none) (p : Producer) : s.waits p = false := by
  obtain ⟨k, hk, rfl⟩ := Fin.exists_shift p s.events.lastServed
  unfold State.nextWaiting at h
  rw [List.find?_eq_none] at h
  exact Bool.eq_false_iff.2 (h _ (List.mem_map.2 ⟨k, hk, rfl⟩))

/-- Outside posting the held events only grow. -/
theorem holding_kept (k : Nat) : State.Kept (fun _ => True) (fun s => k ≤ s.events.holding.length) where
  accept := fun s e h _ => by
    simp only [State.accept, List.length_append, List.length_singleton]
    omega
  context := fun _ _ _ h _ _ => h
  close := fun _ _ h _ _ => h
  port := fun _ _ _ h _ => h
  discard := fun s n h _ => by
    rw [State.discardReads_eq]
    exact h
  command := fun _ _ h _ => h
  schedule := fun _ _ h _ => h

theorem accept_length (s : State) (e : Event) : s.events.holding.length + 1 ≤ (s.accept e).events.holding.length := by
  simp [State.accept]

theorem offerLostFuel_length (k : Nat) (s : State) : s.events.holding.length ≤ (offerLostFuel k s).events.holding.length := by
  induction k generalizing s with
  | zero => exact le_rfl
  | succ k ih =>
    unfold offerLostFuel
    split
    · exact le_rfl
    · split
      · refine le_trans ?_ (ih _)
        exact Nat.le_of_succ_le (accept_length _ _)
      · exact le_rfl

/-- A producer that waits and is served places its event. -/
theorem State.serve_length {s : State} {p : Producer} (h : s.command.Held) (hp : s.waits p = true) :
    s.events.holding.length + 1 ≤ (s.serve p).events.holding.length := by
  have K := holding_kept (s.events.holding.length + 1)
  revert hp
  refine producer_cases (P := fun p => s.waits p = true → s.events.holding.length + 1 ≤ (s.serve p).events.holding.length)
    ?_ ?_ ?_ ?_ p
  · intro hw
    have hprogress := h.slot hw
    obtain ⟨e, he⟩ := Option.isSome_iff_exists.1 (show s.command.slot.isSome = true from hw)
    obtain ⟨c, hc⟩ := Option.isSome_iff_exists.1 hprogress
    have hserve : (s.serve commandProducer).events.holding = ((s.accept e).cmdDonePlaced c.tell).events.holding := by
      simp [State.serve, commandProducer, he, hc]
    rw [hserve]
    exact K.cmdDonePlaced _ (fun _ _ => trivial) (accept_length s e)
  · intro hw
    obtain ⟨⟨e, ev⟩, he⟩ := Option.isSome_iff_exists.1 (show s.offerableClosing.isSome = true from hw)
    have hserve : (s.serve scheduleProducer).events.holding
        = ((s.placeClosing e ev).offerSchedule.examineCommand).events.holding := by
      simp [State.serve, scheduleProducer, he]
    rw [hserve]
    exact K.examineCommand (K.scheduleOps.offerSchedule (accept_length s ev))
  · intro hw
    cases hl : s.timebase.lostReports with
    | nil =>
      rw [State.waits_timebaseProducer, hl] at hw
      cases hw
    | cons r rest =>
      have hserve : (s.serve timebaseProducer).events.holding
          = (({ s with timebase := { s.timebase with lostReports := rest } }.accept
            (.referenceLost r.generator r.position)).offerLost).events.holding := by
        simp [State.serve, timebaseProducer, hl]
      rw [hserve]
      refine le_trans ?_ (offerLostFuel_length 4 _)
      exact accept_length s _
  · intro n hw
    have hn : Fin.ofNat 8 n.val = n := Fin.ext (Nat.mod_eq_of_lt n.isLt)
    have hserve : (s.serve (streamProducer n)).events.holding = ((s.placePending n).settleStream n).events.holding := by
      show ((s.placePending (Fin.ofNat 8 n.val)).settleStream (Fin.ofNat 8 n.val)).events.holding = _
      rw [hn]
    rw [hserve]
    refine K.settleStream trivial ?_
    rw [State.waits_streamProducer, Stream.reportWaits, Bool.and_eq_true] at hw
    obtain ⟨r, hr⟩ := Option.isSome_iff_exists.1 hw.1
    unfold State.placePending
    rw [hr]
    dsimp only
    rw [State.reportPlaced_eq]
    dsimp only
    split <;> exact accept_length s r.event

/-- The grants go on until no place is free or nobody waits: 8 of them fill the list. -/
theorem grantPlacesFuel_served (k : Nat) {s : State} (h : s.command.Held) (hk : 8 ≤ s.events.holding.length + k) :
    (grantPlacesFuel k s).Served := by
  induction k generalizing s with
  | zero =>
    refine State.Served.of_full (s := s) (Bool.eq_false_iff.2 fun hfree => ?_)
    rw [State.placeFree_iff] at hfree
    omega
  | succ k ih =>
    unfold grantPlacesFuel
    split
    · rename_i hfree
      split
      · rename_i hnone
        exact fun _ p _ => State.nextWaiting_eq_none hnone p
      · rename_i p hp
        have hlength := State.serve_length h (List.find?_some hp)
        exact ih (held_keptByRows.serve p hfree h) (by omega)
    · rename_i hfull
      exact State.Served.of_full (Bool.eq_false_iff.2 hfull)

/-- A producer that is served leaves no answer owed. -/
theorem State.Waiting.serve {s : State} (h : s.Waiting) (p : Producer) (hfree : s.placeFree = true) : (s.serve p).Waiting := by
  have K := held_keptByRows
  refine ⟨K.serve p hfree h.1, ?_⟩
  unfold State.serve
  refine (State.owesNoAnswer_congr (s := match p.val with | 0 => _ | 1 => _ | 2 => _ | k + 3 => _) rfl rfl rfl).trans ?_
  split
  · split
    · exact State.owesNoAnswer_of_phase (by rw [State.cmdDonePlaced_phase]; nofun)
    · exact h.2
  · split
    · exact State.examineCommand_owes (K.scheduleOps.offerSchedule (K.placeClosing _ _ h.1 hfree))
    · exact h.2
  · split
    · refine (h.same ?_).2
      exact State.Waiting.offerLostFuel_command 4 _
    · exact h.2
  · exact State.examineCommand_owes (K.settle trivial (K.placePending trivial h.1 hfree))

theorem State.Waiting.grantPlacesFuel (k : Nat) {s : State} (h : s.Waiting) : (grantPlacesFuel k s).Waiting := by
  induction k generalizing s with
  | zero => exact h
  | succ k ih =>
    unfold Machine.grantPlacesFuel
    split
    · rename_i hfree
      split
      · exact h
      · exact ih (h.serve _ hfree)
    · exact h

end Sys2Proof.Machine
end

section
/-! Every step keeps the Event Holding List served and gives a command in progress something to wait for: O56. -/

namespace Sys2Proof.Machine

/-- No producer waits while a place is free, and the Command Unit owes no answer. -/
structure State.Attended (s : State) : Prop where
  served : s.Served
  waiting : s.Waiting

namespace State.Attended

variable {s t : State}

/-- A change of what neither a waiting event nor the command in progress rests on. -/
theorem same (h : s.Attended) (streams : t.streams = s.streams) (schedule : t.schedule = s.schedule)
    (lost : t.timebase.lostReports = s.timebase.lostReports) (holding : t.events.holding = s.events.holding)
    (command : t.command = { s.command with
      base := t.command.base
      size := t.command.size
      producer := t.command.producer
      consumer := t.command.consumer }) : t.Attended := by
  refine ⟨h.served.less ⟨fun hf => ?_, fun hs => ?_, fun ho => ?_, lost, fun m hw => ?_⟩, ?_⟩
  · rwa [State.placeFree, holding] at hf
  · rwa [command] at hs
  · rwa [State.offerableClosing_congr (congrArg _ schedule) (congrArg _ schedule)] at ho
  · rwa [State.stream, streams] at hw
  · obtain ⟨hheld, howes⟩ := h.waiting
    refine ⟨?_, (State.owesNoAnswer_congr ?_ ?_ ?_).trans howes⟩
    · rw [command]
      exact ⟨hheld.slot, hheld.completing⟩
    all_goals rw [command]

theorem of_reset (streams : t.streams = State.reset.streams) (schedule : t.schedule = State.reset.schedule)
    (lost : t.timebase.lostReports = State.reset.timebase.lostReports) (holding : t.events.holding = State.reset.events.holding)
    (command : t.command = State.reset.command) : t.Attended := by
  obtain ⟨_, _, hnone, hcommand, _⟩ := resetMeetsInvariants
  have hreset : State.reset.Attended := ⟨State.reset.noneWaits_iff.1 hnone, State.reset.commandConsistent_iff.1 hcommand⟩
  exact hreset.same streams schedule lost holding (by rw [command])

theorem finish (h : s.Attended) : s.finish.Attended := by
  obtain ⟨hslot, _⟩ := s.finish_command
  have hheld : s.finish.events.holding.length = s.events.holding.length := by
    have := congrArg List.length s.finish_heldEvents
    simpa [State.heldEvents] using this
  refine ⟨h.served.less ⟨fun hf => ?_, fun hs => hslot ▸ hs, fun ho => ?_, ?_, fun m hw => ?_⟩, h.waiting.finish⟩
  · rwa [State.placeFree, hheld] at hf
  · rwa [State.offerableClosing_congr (congrArg _ s.finish_schedule) (congrArg _ s.finish_schedule)] at ho
  · rw [s.finish_timebase]
  · have hapart := (s.finish_grantsTo.2.2.1 m).1
    have hgate : (s.finish.stream m).drainAnswered = (s.stream m).drainAnswered := by
      have k := congrArg Stream.drainAnswered hapart
      exact k
    exact Stream.reportWaits_of (Stream.apartFromGrants_reports hapart).1 (fun k => hgate ▸ k) hw

theorem examineQuiesce (h : s.Attended) : s.examineQuiesce.Attended := by
  unfold State.examineQuiesce
  split
  · exact of_reset rfl rfl rfl rfl rfl
  · exact h

theorem takeQuiesceClaim (h : s.Attended) : s.takeQuiesceClaim.Attended := by
  unfold State.takeQuiesceClaim
  split
  · exact h
  · exact examineQuiesce (h.same rfl rfl rfl rfl rfl)

theorem enterQuiescing (h : s.Attended) : s.enterQuiescing.Attended := by
  unfold State.enterQuiescing
  refine takeQuiesceClaim ?_
  split <;> exact h.same rfl rfl rfl rfl rfl

theorem enterHalted (h : s.Attended) (cause : HaltCause) : (s.enterHalted cause).Attended := h.same rfl rfl rfl rfl rfl

theorem writeDeviceControl (h : s.Attended) (w : BitVec 32) : (s.writeDeviceControl w).Attended := by
  cases hw : wordReset w with
  | true =>
    rw [State.writeDeviceControl_reset hw]
    exact of_reset rfl rfl rfl rfl rfl
  | false =>
    rw [State.writeDeviceControl_eq hw]
    dsimp only
    split_ifs
    · unfold State.enterLoading
      dsimp only
      split
      · refine enterHalted ?_ _
        exact h.same rfl rfl rfl rfl rfl
      · exact finish (h.same rfl rfl rfl rfl rfl)
    · exact enterQuiescing (h.same rfl rfl rfl rfl rfl)
    · exact h.same rfl rfl rfl rfl rfl

theorem fatalError (h : s.Attended) (t : Transfer) (cause : HaltCause) : (s.fatalError t cause).Attended := by
  have hsettles : (s.recordFault t).settleTransfers.Attended := h.same rfl rfl rfl rfl rfl
  unfold State.fatalError State.fatalClaim
  split
  · exact hsettles.enterHalted cause
  · exact hsettles

theorem loadRootBlock (h : s.Attended) (b : RootBlock) : (s.loadRootBlock b).Attended := by
  unfold State.loadRootBlock
  split
  · exact h
  · split
    · exact h.same rfl rfl rfl rfl rfl
    · exact h.enterHalted _

theorem complete (h : s.Attended) (e : TransferId) (isFor : Transfer → Bool) (early handed : Transfer → State → State)
    (hearly : ∀ (t : Transfer) (u : State), isFor t = true → u.Attended → (early t u).Attended)
    (hhanded : ∀ (t : Transfer) (u : State), isFor t = true → u.Attended → (handed t u).Attended) :
    (s.complete e isFor early handed).Attended := by
  have hfreed : (s.putTransfer e none).Attended := h.same rfl rfl rfl rfl rfl
  refine State.complete_cases s e isFor early handed h ?_ ?_ ?_
  · exact fun _ _ _ _ _ => hfreed.examineQuiesce
  · exact fun t _ _ hf _ _ => takeQuiesceClaim ((hearly t _ hf hfreed).same rfl rfl rfl rfl rfl)
  · exact fun t _ _ hf => finish (hhanded t _ hf hfreed)

theorem accessError (h : s.Attended) (n : StreamNo) (cause : FaultCause) : (s.accessError n cause).Attended := by
  unfold State.accessError
  dsimp only
  split
  · refine ⟨h.served.enterFaulted n _ _, h.waiting.same ?_⟩
    rw [State.enterFaulted_eq]
    unfold State.readsMarked State.handRemoval
    split
    · rw [State.discardReads_eq]
      split <;> rfl
    · split <;> rfl
  · exact h

theorem settleStream (h : s.Attended) (n : StreamNo) : (s.settleStream n).Attended :=
  ⟨State.Served.kept.settleStream h.served, State.Waiting.settleStream h.waiting.1 n⟩

/-- A completion does not change the report of its stream. -/
theorem completes (h : s.Attended) {t : Transfer} (n : StreamNo) {d : Stream} (hd : (s.stream n).Completes t d) :
    (s.putStream n d).Attended := by
  obtain ⟨hp, _, _, _, hgate⟩ := hd.reports
  exact ⟨h.served.change hp fun k => hgate ▸ k, h.waiting.same rfl⟩

/-- A command that is taken leaves the state attended once it has executed. -/
theorem executes (h : s.Attended) {execute : State → State} (hexecute : ∀ u : State, u.Executes (execute u)) (c : CommandUnit)
    (hc : c.inProgress.isSome = true) (hslot : c.slot = s.command.slot) : (execute { s with command := c }).Attended := by
  have hheld : c.Held := ⟨fun _ => hc, fun _ => hc⟩
  have hserved : State.Served { s with command := c } :=
    h.served.less ⟨id, fun hs => hslot ▸ hs, id, rfl, fun _ => id⟩
  exact ⟨State.Served.kept.executes hserved (hexecute _), held_keptByRows.executes (hexecute _) hc hheld,
    State.Waiting.executes hc hheld (hexecute _)⟩

/-- Every row leaves the state attended. -/
theorem act (h : s.Attended) (k : RowAct s t) : t.Attended := by
  have hfails (t : Transfer) (n : StreamNo) (u : State) (effect : Stream → Stream) (cause : FaultCause)
      (hd : ∀ c : Stream, c.Completes t (effect c)) (hu : u.Attended) :
      (((u.recordFault t).modifyStream n effect).accessError n cause).Attended := by
    refine accessError ?_ n cause
    rw [recordFault_modifyStream]
    exact (hu.completes n (hd _)).same rfl rfl rfl rfl rfl
  cases k with
  | command e record seq execute hexecute =>
    unfold State.takeCommand State.completeOk
    refine h.complete _ _ _ _ (fun _ _ _ => id) fun t u _ hu => ?_
    exact hu.executes hexecute _ rfl rfl
  | posts e =>
    unfold State.completeOk
    refine h.complete _ _ _ _ (fun _ _ _ => id) fun t u _ hu => ⟨grantPlacesFuel_served 8 ?_ (Nat.le_add_left _ _), ?_⟩
    · exact hu.waiting.1
    · exact State.Waiting.grantPlacesFuel 8 (hu.waiting.same rfl)
  | completes e isFor effect hfor heffect =>
    unfold State.completeStream State.completeOk
    refine h.complete _ _ _ _ (fun _ _ _ => id) fun t u hf hu => ?_
    obtain ⟨n, hn⟩ := Option.isSome_iff_exists.1 (hfor t hf)
    rw [State.onStream_of_stream hn]
    exact settleStream (hu.completes n (heffect t _ hf)) n
  | fails e isFor cause effect hfor heffect =>
    unfold State.failStream
    refine h.complete _ _ _ _ (fun t u hf hu => ?_) fun t u hf hu => ?_
    · obtain ⟨n, hn⟩ := Option.isSome_iff_exists.1 (hfor t hf)
      rw [State.onStream_of_stream hn]
      exact hfails t n u _ cause (fun c => heffect t c hf) hu
    · obtain ⟨n, hn⟩ := Option.isSome_iff_exists.1 (hfor t hf)
      rw [State.onStream_of_stream hn]
      exact settleStream (hfails t n u _ cause (fun c => heffect t c hf) hu) n
  | fatal e r cause _ =>
    unfold State.completeFatal
    exact h.complete _ _ _ _ (fun t _ _ hu => hu.fatalError t cause) fun t _ _ hu => hu.fatalError t cause
  | root e b =>
    unfold State.completeOk
    exact h.complete _ _ _ _ (fun _ _ _ => id) fun _ _ _ hu => hu.loadRootBlock b
  | event t _ hacts => exact finish ⟨State.Served.kept.acts h.served hacts, h.waiting.acts hacts⟩
  | tick g lanes _ _ =>
    exact finish ⟨State.Served.kept.tickGenerator (State.Served.kept.takeLosses h.served g) g lanes,
      (h.waiting.takeLosses g).tickGenerator g lanes⟩
  | edge g _ m => exact h.same rfl rfl rfl rfl rfl
  | still t k hevents htimebase =>
    exact h.same k.streams k.schedule (by rw [htimebase]) hevents (by rw [k.command])
  | control w _ => exact h.writeDeviceControl w
  | rootPointer p _ => exact h.same rfl rfl rfl rfl rfl
  | pinDown => exact of_reset rfl rfl rfl rfl rfl
  | pinUp => exact h.same rfl rfl rfl rfl rfl

end State.Attended

end Sys2Proof.Machine

open Sys2Proof Sys2Proof.Machine

/-- Settles O56: an event waits only where every place is taken, and the grants after an event write go on until then. -/
theorem stepLeavesNoneWaiting : Obligations.StepLeavesNoneWaiting := by
  intro s t hnone hcommand h
  rw [State.noneWaits_iff, State.commandConsistent_iff] at *
  have hs : s.Attended := ⟨hnone, hcommand⟩
  have ht : t.Attended := by
    rcases step_act s t h with rfl | ⟨u, hu, hact⟩
    · exact hs
    · refine State.Attended.act ?_ hact
      rw [hu]
      exact hs.same rfl rfl rfl rfl rfl
  exact ⟨ht.served, ht.waiting⟩

end

section
/-! Engine Control: the enable, the disable, and the completions that a frozen engine does not take (sections 8.5 and 9.2
to 9.5). -/

namespace Sys2Proof.Machine

/-! ### ENABLE in OFF -/

/-- In LOADING nothing is presented by the Stream and Command Units, so the step closes with the arbiter alone. -/
theorem State.finish_of_inactive {s : State} (h : s.isActive = false) (hm : s.transfers.mode = .issue) :
    s.finish = grantFuel 8 s := by
  simp [State.finish, h, hm]

/-- With the table empty and the Root Block read presented, the first grant is that read, in entry 0. -/
theorem State.grantOne_root {s : State} (hempty : ∀ e, s.transfer e = none) (hroot : s.wantsRoot = true) :
    s.grantOne = some (s.putTransfer 0 (some s.engine.formRead)) := by
  have hfree : s.freeEntry = some 0 := by
    simp [State.freeEntry, hempty, Config.streams]
  simp [State.grantOne, hfree, hroot]

theorem State.finish_root {s : State} (hactive : s.isActive = false) (hm : s.transfers.mode = .issue)
    (hempty : ∀ e, s.transfer e = none) (hroot : s.wantsRoot = true) :
    s.finish.transfer 0 = some s.engine.formRead := by
  rw [State.finish_of_inactive hactive hm]
  unfold grantFuel
  rw [State.grantOne_root hempty hroot]
  exact (grantFuel_keeps 7 _).1.1 0 _ (State.transfer_putTransfer _ _ _)

theorem State.outstanding_of_empty {s : State} (h : ∀ e, s.transfer e = none) (r : Requester) : s.outstanding r = 0 :=
  (s.outstanding_eq_zero_iff r).2 fun e t ht => by
    rw [h e] at ht
    cases ht

/-! ### The end of a quiesce -/

/-- The values after an engine disable, of an engine whose pin is released (R192). -/
theorem State.endQuiesce_eq {s : State} (hp : s.pin = false) :
    s.endQuiesce = { State.reset with
      engine := { State.reset.engine with
        interruptEnable := s.engine.interruptEnable
        rootPointer := s.engine.rootPointer }
      transfers := { State.reset.transfers with faultAddress := s.transfers.faultAddress }
      orderChoices := s.orderChoices
      claimChoices := s.claimChoices
      pending := s.pending } := by
  simp only [State.endQuiesce, State.fullReset, hp]
  rfl

theorem State.examineQuiesce_of_busy {s : State} (h : s.engine.state ≠ .quiescing ∨ s.tableEmpty = false) :
    s.examineQuiesce = s := by
  unfold State.examineQuiesce
  rw [if_neg]
  rcases h with h | h <;> simp [h]

theorem State.examineQuiesce_of_empty {s : State} (hq : s.engine.state = .quiescing) (h : s.tableEmpty = true) :
    s.examineQuiesce = s.endQuiesce := by
  simp [State.examineQuiesce, hq, h]

/-- A claim with the table empty ends the quiesce (R183). -/
theorem State.takeQuiesceClaim_of_empty {s : State} (hq : s.engine.state = .quiescing) (h : s.tableEmpty = true) :
    s.takeQuiesceClaim = s.settleTransfers.endQuiesce := by
  unfold State.takeQuiesceClaim
  rw [if_neg (by simp [h])]
  exact State.examineQuiesce_of_empty hq h

theorem State.takeQuiesceClaim_of_busy {s : State} (h : s.tableEmpty = false) :
    s.takeQuiesceClaim
      = if s.transfers.mode = .issue ∧ s.transfers.lead ≠ 0 then s else s.settleTransfers := by
  unfold State.takeQuiesceClaim
  by_cases hlead : s.transfers.mode = .issue ∧ s.transfers.lead ≠ 0
  · rw [if_pos hlead, if_pos (by simp [hlead.1, hlead.2, h])]
  · rw [if_neg hlead, if_neg (by simp only [h]; simpa using hlead)]
    exact State.examineQuiesce_of_busy (.inr h)

theorem State.enterQuiescing_of_empty {s : State} (hp : s.pin = false) (h : s.tableEmpty = true) :
    s.enterQuiescing = { State.reset with
      engine := { State.reset.engine with
        interruptEnable := s.engine.interruptEnable
        rootPointer := s.engine.rootPointer }
      transfers := { State.reset.transfers with faultAddress := s.transfers.faultAddress }
      orderChoices := s.orderChoices
      claimChoices := s.claimChoices
      pending := s.pending } := by
  have hfrozen : ({ s.freeze with engine := { s.engine with state := .quiescing } } : State).tableEmpty = true := h
  unfold State.enterQuiescing
  dsimp only
  rw [if_neg (by rw [hfrozen]; simp), State.takeQuiesceClaim_of_empty rfl hfrozen]
  exact State.endQuiesce_eq hp

theorem State.enterQuiescing_of_busy {s : State} (h : s.tableEmpty = false) :
    s.enterQuiescing =
      let issues := s.transfers.mode == .issue
      let ahead := if issues then s.claimChoices.headD 0 else 0
      { s with
        engine := { s.engine with state := .quiescing }
        transfers := { s.transfers with
          mode := if ahead = 0 then .settle else .issue
          lead := ahead }
        ports := Vector.replicate 8 quietPort
        events := { s.events with timerRunning := false }
        claimChoices := if issues then s.claimChoices.tail else s.claimChoices } := by
  have hfrozen : ({ s.freeze with engine := { s.engine with state := .quiescing } } : State).tableEmpty = false := h
  unfold State.enterQuiescing
  dsimp only
  by_cases hm : s.transfers.mode = .issue
  · rw [if_pos (by rw [hfrozen]; simpa [State.freeze] using hm), State.takeQuiesceClaim_of_busy (by exact h)]
    by_cases hlead : s.claimChoices.headD 0 = 0
    · rw [if_neg (fun k => k.2 hlead)]
      simp only [hm, hlead, beq_self_eq_true, if_true]
      rfl
    · rw [if_pos ⟨hm, hlead⟩]
      simp only [hm, beq_self_eq_true, if_true, if_neg hlead]
      simp only [State.chooseLead, State.freeze, hm]
  · have hmode : (s.transfers.mode == .issue) = false := by simpa using hm
    rw [if_neg (by simp [State.freeze, hm]), State.takeQuiesceClaim_of_busy hfrozen, if_neg (fun k => hm k.1)]
    simp only [hmode]
    rfl

/-! ### A fatal ERROR -/

/-- A fatal claim halts an engine that is LOADING or ACTIVE (R189). -/
theorem State.fatalError_halts {s : State} (t : Transfer) (cause : HaltCause)
    (h : s.engine.state = .loading ∨ s.engine.state = .active) :
    s.fatalError t cause = (s.recordFault t).settleTransfers.enterHalted cause := by
  unfold State.fatalError State.fatalClaim
  exact if_pos (by simpa [State.settleTransfers, State.recordFault] using h)

theorem State.completeFatal_halts {s : State} {e : TransferId} {t : Transfer} (cause : HaltCause)
    (h : s.arrives e t = true) (hs : s.engine.state = .loading ∨ s.engine.state = .active) :
    s.completeFatal e t.requester cause
      = (((s.putTransfer e none).recordFault t).settleTransfers.enterHalted cause) := by
  unfold State.completeFatal
  rw [State.complete_arrives s e t _ _ _ h (by simp), State.fatalError_halts t cause (by exact hs),
    State.finish_enterHalted]

end Sys2Proof.Machine

open Sys2Proof Sys2Proof.Machine

/-- Settles O9: an aligned Root Pointer presents the Root Block read, which the empty table grants first; another one
halts the engine. -/
theorem enableBeginsBringUp : Obligations.EnableBeginsBringUp := by
  intro s w hp hoff hempty hw hreset
  rw [exec_enable w hp, State.writeDeviceControl_eq hreset]
  dsimp only
  rw [if_pos ⟨hw, hoff⟩]
  unfold State.enterLoading
  dsimp only
  constructor
  · intro haligned
    rw [if_neg (by simpa using haligned)]
    refine ⟨_, rfl, ?_, State.finish_grantsTo _⟩
    refine State.finish_root (by simp [State.isActive]) rfl hempty ?_
    simp only [State.wantsRoot, hp, Bool.not_false, beq_self_eq_true, Bool.true_and, beq_iff_eq]
    exact State.outstanding_of_empty (by exact hempty) _
  · intro haligned
    rw [if_pos (by simpa using haligned)]
    rfl

/-- Settles O11, by the two ends of the entry to QUIESCING. -/
theorem disableQuiesces : Obligations.DisableQuiesces := by
  intro s w hp hw hreset hstate issues ahead
  have henabled : s.engine.state.enabled = true := by
    rcases hstate with h | h | h <;> simp [h, EngineState.enabled]
  rw [exec_engineDisable w hp, State.writeDeviceControl_eq hreset]
  dsimp only
  rw [if_neg (by simp [hw]), if_pos ⟨hw, henabled⟩]
  exact ⟨fun h => congrArg Host.Outcome.next (State.enterQuiescing_of_busy (by exact h)),
    fun h => congrArg Host.Outcome.next (State.enterQuiescing_of_empty (by exact hp) (by exact h))⟩

/-- Settles O13: the three rows hand their causes to one halt. -/
theorem fatalErrorHalts : Obligations.FatalErrorHalts := by
  intro s e t h hstate halted
  refine ⟨fun ht => ?_, fun ht => ?_, fun ht => ?_⟩
  · exact congrArg Host.Outcome.next ((congrArg (s.completeFatal e · _) ht.symm).trans
      (State.completeFatal_halts .rootAccess h hstate))
  · exact congrArg Host.Outcome.next ((congrArg (s.completeFatal e · _) ht.symm).trans
      (State.completeFatal_halts .controlRingAccess h hstate))
  · exact congrArg Host.Outcome.next ((congrArg (s.completeFatal e · _) ht.symm).trans
      (State.completeFatal_halts .eventRingAccess h hstate))

end

section
/-! Completions that reach no requester, and those taken ahead of the quiesce claim (sections 8.3, 8.5 and 9.5). -/

namespace Sys2Proof.Machine

/-! ### What the entry to FAULTED leaves -/

theorem State.readsMarked_transfer (s : State) (n : StreamNo) (e : TransferId) :
    (s.readsMarked n).transfer e
      = if (s.stream n).direction = .output then (s.transfer e).map (Transfer.discarded n) else s.transfer e := by
  unfold State.readsMarked
  split
  · rename_i h
    rw [if_pos h, State.discardReads_transfer]
  · rename_i h
    rw [if_neg (by rw [h]; decide)]

theorem State.readsMarked_tableEmpty (s : State) (n : StreamNo) : (s.readsMarked n).tableEmpty = s.tableEmpty := by
  unfold State.readsMarked
  split
  · exact s.discardReads_tableEmpty n
  · rfl

/-- The table in which the data reads of an OUTPUT stream are marked for discard (R66). -/
def State.markedTable (s : State) (n : StreamNo) : Vector (Option Transfer) 8 :=
  if (s.stream n).direction = .output then s.transfers.table.map (Option.map (Transfer.discarded n))
  else s.transfers.table

/-- The removal claims with that of the stream behind them, when it has an entry (R105). -/
def State.claimsWith (s : State) (n : StreamNo) (reason : ClearReason) : List RemovalClaim :=
  s.schedule.removals ++ ((s.stream n).scheduleEntry.map (fun id => ⟨id, n, reason⟩)).toList

theorem State.readsMarked_frame (s : State) (n : StreamNo) :
    s.readsMarked n = { s with transfers := { s.transfers with table := s.markedTable n } } := by
  unfold State.readsMarked State.markedTable
  split <;> rename_i h <;> rw [h]
  · rw [State.discardReads_eq, if_pos rfl]
  · rfl

theorem State.handRemoval_frame (s : State) (n : StreamNo) (reason : ClearReason) :
    s.handRemoval n reason = { s with schedule := { s.schedule with removals := s.claimsWith n reason } } := by
  unfold State.handRemoval State.claimsWith
  split <;> rename_i h <;> rw [h]
  · simp
  · rfl

/-- The entry to FAULTED is in the stream's context, the marks of its reads and its removal claim (R19, R66, R105). -/
theorem State.enterFaulted_frame (s : State) (n : StreamNo) (cause : FaultCause) (position : Position) :
    s.enterFaulted n cause position = ({ s with
      transfers := { s.transfers with table := s.markedTable n }
      schedule := { s.schedule with removals := s.claimsWith n cause.clearReason } }).putStream n
        ((s.stream n).faultedWith cause position) := by
  rw [State.enterFaulted_eq, State.handRemoval_frame, State.readsMarked_frame]
  rfl

/-- A completion changes the FIFO, the staging list and the consumer index of its stream's context (R31, R55, R62). -/
theorem Stream.Completes.body {t : Transfer} {c d : Stream} (h : c.Completes t d) :
    d = { c with fifo := d.fifo, staging := d.staging, consumer := d.consumer } := by
  cases h with
  | read data _ =>
    unfold Stream.completeRead
    split
    · dsimp only
      split <;> rfl
    · rfl
  | failedRead _ => unfold Stream.failRead; split <;> rfl
  | write ok _ => unfold Stream.finishWrite; split <;> rfl
  | arrives r _ => unfold Stream.recordArrives; split <;> rfl
  | nothing => rfl

theorem Stream.Completes.isTaking {t : Transfer} {c d : Stream} (h : c.Completes t d) : d.isTaking = c.isTaking := by
  rw [h.body]
  rfl

/-! ### The rows of a completion -/

/-- What a completion that is taken ahead of the quiesce claim does, by the kind of its row (R179, R180, R190). -/
inductive EarlyEffect (isFor : Transfer → Bool) : Bool → (Transfer → State → State) → Prop
  | ok : EarlyEffect isFor false (fun _ s => s)
  | fatal (cause : HaltCause) (h : ∀ t, isFor t = true → t.requester.stream? = none) :
      EarlyEffect isFor true (fun t s => s.fatalError t cause)
  | stream (cause : FaultCause) (effect : Transfer → Stream → Stream)
      (hfor : ∀ t, isFor t = true → t.requester.stream?.isSome = true)
      (heffect : ∀ (t : Transfer) (c : Stream), isFor t = true → c.Completes t (effect t c)) :
      EarlyEffect isFor true
        (fun t s => (s.recordFault t).onStream t (fun n s => (s.modifyStream n (effect t)).accessError n cause))

/-- `u` is what the completion of entry `e`, of a transfer for which `isFor` holds, makes of `s`. -/
def State.IsCompletion (s : State) (e : TransferId) (isFor : Transfer → Bool) (failure : Bool) (u : State) : Prop :=
  ∃ early handed, EarlyEffect isFor failure early ∧ u = s.complete e isFor early handed

theorem State.completeOk_isCompletion (s : State) (e : TransferId) (isFor : Transfer → Bool)
    (handed : Transfer → State → State) : s.IsCompletion e isFor false (s.completeOk e isFor handed) :=
  ⟨_, _, .ok, rfl⟩

theorem State.takeCommand_isCompletion (s : State) (e : TransferId) (record : Instr) (seq : BitVec 16)
    (execute : State → State) :
    s.IsCompletion e (Transfer.isOf .commandRecord) false (s.takeCommand e record seq execute) :=
  s.completeOk_isCompletion e _ _

theorem State.completeStream_isCompletion (s : State) (e : TransferId) (isFor : Transfer → Bool)
    (effect : Transfer → Stream → Stream) : s.IsCompletion e isFor false (s.completeStream e isFor effect) :=
  s.completeOk_isCompletion e _ _

theorem State.failStream_isCompletion (s : State) (e : TransferId) (isFor : Transfer → Bool) (cause : FaultCause)
    (effect : Transfer → Stream → Stream) (hfor : ∀ t, isFor t = true → t.requester.stream?.isSome = true)
    (heffect : ∀ (t : Transfer) (c : Stream), isFor t = true → c.Completes t (effect t c)) :
    s.IsCompletion e isFor true (s.failStream e isFor cause effect) := by
  unfold State.failStream
  exact ⟨_, _, .stream cause effect hfor heffect, rfl⟩

theorem State.completeFatal_isCompletion (s : State) (e : TransferId) (r : Requester) (cause : HaltCause)
    (h : r.stream? = none) : s.IsCompletion e (fun t => t.requester == r) true (s.completeFatal e r cause) :=
  ⟨_, _, .fatal cause fun t ht => by rw [beq_iff_eq.1 ht, h], rfl⟩

/-- Every row of a completion is one of `State.complete`, for the transfers of its requester. -/
theorem exec_completion {i : Instr} {e : TransferId} (h : completionEntry i = some e) (s : State) :
    ∃ isFor u, exec i s = .next u ∧ (∀ t, isFor t = completesTransfer i t) ∧ s.IsCompletion e isFor (isFailure i) u := by
  cases i <;> cases h
  case dataReadError =>
    exact ⟨_, _, rfl, fun _ => rfl, s.failStream_isCompletion e _ .dataAccess _ (fun _ k => Transfer.isData_stream k)
      fun _ _ k => .failedRead k⟩
  case dataWriteError =>
    exact ⟨_, _, rfl, fun _ => rfl, s.failStream_isCompletion e _ .dataAccess _ (fun _ k => Transfer.isData_stream k)
      fun _ _ k => .write false k⟩
  case recordReadError =>
    exact ⟨_, _, rfl, fun _ => rfl, s.failStream_isCompletion e _ .ringAccess _ (fun _ k => Transfer.isRecordRead_stream k)
      fun _ _ _ => .nothing⟩
  case rootAccess => exact ⟨_, _, rfl, fun _ => rfl, s.completeFatal_isCompletion e _ .rootAccess rfl⟩
  case controlRingAccess => exact ⟨_, _, rfl, fun _ => rfl, s.completeFatal_isCompletion e _ .controlRingAccess rfl⟩
  case eventRingAccess => exact ⟨_, _, rfl, fun _ => rfl, s.completeFatal_isCompletion e _ .eventRingAccess rfl⟩
  case rootBlockLoad => exact ⟨_, _, rfl, fun _ => rfl, s.completeOk_isCompletion e _ _⟩
  case eventWriteComplete => exact ⟨_, _, rfl, fun _ => rfl, s.completeOk_isCompletion e _ _⟩
  case dataReadComplete => exact ⟨_, _, rfl, fun _ => rfl, s.completeStream_isCompletion e _ _⟩
  case dataWriteComplete => exact ⟨_, _, rfl, fun _ => rfl, s.completeStream_isCompletion e _ _⟩
  case recordReadComplete => exact ⟨_, _, rfl, fun _ => rfl, s.completeStream_isCompletion e _ _⟩
  all_goals exact ⟨_, _, rfl, fun _ => rfl, s.takeCommand_isCompletion e _ _ _⟩

/-- Outside ISSUE a completion only frees its entry, which may end a quiesce (R178, R183). -/
theorem State.complete_settles {s : State} {e : TransferId} {t : Transfer} {isFor : Transfer → Bool}
    (early handed : Transfer → State → State) (hp : s.pin = false) (ht : s.transfer e = some t) (hfor : isFor t = true)
    (hm : s.transfers.mode ≠ .issue) : s.complete e isFor early handed = (s.putTransfer e none).examineQuiesce := by
  simp [State.complete, hp, ht, hfor, hm]

/-- In ISSUE of an engine that is QUIESCING a completion is taken ahead of the claim (R181). -/
theorem State.complete_ahead {s : State} {e : TransferId} {t : Transfer} {isFor : Transfer → Bool}
    (early handed : Transfer → State → State) (hp : s.pin = false) (ht : s.transfer e = some t) (hfor : isFor t = true)
    (hm : s.transfers.mode = .issue) (hq : s.engine.state = .quiescing) :
    s.complete e isFor early handed = (early t (s.putTransfer e none)).countEarly.takeQuiesceClaim := by
  simp [State.complete, hp, ht, hfor, hm, hq]

/-! ### Failures ahead of the claim -/

/-- What a failure taken ahead of the quiesce claim leaves of a state: Fault Address, the table and the stream of the
failed transfer are all that it may change, and the mode falls to SETTLE exactly for a fatal one. -/
structure State.FailsAhead (t : Transfer) (s u : State) : Prop where
  fault : u.transfers.faultAddress = t.address
  engine : u.engine = s.engine
  pin : u.pin = s.pin
  choices : u.orderChoices = s.orderChoices ∧ u.claimChoices = s.claimChoices ∧ u.pending = s.pending
  empty : u.tableEmpty = s.tableEmpty
  free : ∀ e, s.transfer e = none → u.transfer e = none
  events : u.events = s.events
  command : u.command = s.command
  timebase : u.timebase = s.timebase
  ports : u.ports = s.ports
  issue : u.transfers.mode = .issue ↔ t.requester.stream? ≠ none
  lead : t.requester.stream? ≠ none → u.transfers.lead = s.transfers.lead
  others : ∀ n, t.requester.stream? ≠ some n → u.stream n = s.stream n
  faulted : ∀ n, t.requester.stream? = some n → (s.stream n).isTaking = true →
    (u.stream n).state = .faulted ∧ (s.stream n).sameRun (u.stream n)

theorem State.FailsAhead.accessError {s : State} {t : Transfer} {n : StreamNo} (hm : s.transfers.mode = .issue)
    (hn : t.requester.stream? = some n) {d : Stream} (hd : (s.stream n).Completes t d) (cause : FaultCause) :
    State.FailsAhead t s (((s.recordFault t).putStream n d).accessError n cause) := by
  have hsome : t.requester.stream? ≠ none := by simp [hn]
  have others (u : State) (c : Stream) (h : ∀ m, u.stream m = s.stream m) (m : StreamNo)
      (hne : t.requester.stream? ≠ some m) : (u.putStream n c).stream m = s.stream m := by
    rw [State.stream_putStream_of_ne _ _ (by rintro rfl; exact hne hn), h m]
  unfold State.accessError
  dsimp only
  split
  · rename_i htaking
    rw [State.stream_putStream, hd.isTaking] at htaking
    have hempty := ((s.recordFault t).putStream n d).readsMarked_tableEmpty n
    have hfree (e : TransferId) (h : s.transfer e = none) :
        (((s.recordFault t).putStream n d).readsMarked n).transfer e = none := by
      rw [State.readsMarked_transfer, show ((s.recordFault t).putStream n d).transfer e = none from h]
      exact ite_self _
    rw [State.readsMarked_frame] at hempty hfree
    rw [State.enterFaulted_frame, State.stream_putStream]
    refine ⟨rfl, rfl, rfl, ⟨rfl, rfl, rfl⟩, hempty, hfree, rfl, rfl, rfl, rfl, ⟨fun _ => hsome, fun _ => hm⟩,
      fun _ => rfl, fun m hne => ?_, fun m h _ => ?_⟩
    · rw [State.stream_putStream_of_ne _ _ (by rintro rfl; exact hne hn)]
      exact State.stream_putStream_of_ne _ _ (by rintro rfl; exact hne hn)
    · obtain rfl := Option.some.inj (hn.symm.trans h)
      rw [State.stream_putStream, Stream.faultedWith, Stream.emptied_body, hd.body]
      exact ⟨rfl, rfl, rfl, rfl, rfl, rfl⟩
  · rename_i htaking
    rw [State.stream_putStream, hd.isTaking] at htaking
    exact ⟨rfl, rfl, rfl, ⟨rfl, rfl, rfl⟩, rfl, fun _ h => h, rfl, rfl, rfl, rfl, ⟨fun _ => hsome, fun _ => hm⟩,
      fun _ => rfl, fun m hne => State.stream_putStream_of_ne _ _ (by rintro rfl; exact hne hn),
      fun m hne h => absurd (Option.some.inj (hn.symm.trans hne) ▸ h) htaking⟩

/-- A fatal claim has no effect in QUIESCING: the Transfer Unit is in SETTLE, and that is all (R179, R189). -/
theorem State.FailsAhead.fatal {s : State} {t : Transfer} (hq : s.engine.state = .quiescing)
    (hn : t.requester.stream? = none) (cause : HaltCause) : State.FailsAhead t s (s.fatalError t cause) := by
  have heq : s.fatalError t cause = (s.recordFault t).settleTransfers := by
    simp [State.fatalError, State.fatalClaim, State.recordFault, State.settleTransfers, hq]
  rw [heq]
  exact ⟨rfl, rfl, rfl, ⟨rfl, rfl, rfl⟩, rfl, fun _ h => h, rfl, rfl, rfl, rfl, ⟨nofun, fun h => absurd hn h⟩,
    fun h => absurd hn h, fun _ _ => rfl, fun n h => by simp [hn] at h⟩

theorem EarlyEffect.failsAhead {isFor : Transfer → Bool} {early : Transfer → State → State}
    (h : EarlyEffect isFor true early) {s : State} {t : Transfer} (hfor : isFor t = true)
    (hm : s.transfers.mode = .issue) (hq : s.engine.state = .quiescing) : State.FailsAhead t s (early t s) := by
  cases h with
  | fatal cause hn => exact .fatal hq (hn t hfor) cause
  | stream cause effect hsome heffect =>
    obtain ⟨n, hn⟩ := Option.isSome_iff_exists.1 (hsome t hfor)
    dsimp only
    rw [State.onStream_of_stream hn]
    exact .accessError hm hn (heffect t _ hfor) cause

/-- A completion taken ahead brings the claim one nearer, or ends the quiesce (R181, R183). -/
theorem State.claim_after_completion {s : State} (hp : s.pin = false) (hq : s.engine.state = .quiescing) :
    s.countEarly.takeQuiesceClaim =
      if s.tableEmpty then s.endQuiesce
      else if s.transfers.mode = .issue ∧ 1 < s.transfers.lead then
        { s with transfers := { s.transfers with lead := s.transfers.lead - 1 } }
      else { s with transfers := { s.transfers with mode := .settle, lead := 0 } } := by
  cases hempty : s.tableEmpty with
  | true =>
    rw [if_pos rfl, State.takeQuiesceClaim_of_empty (by exact hq) (by exact hempty), State.endQuiesce_eq (by exact hp),
      State.endQuiesce_eq hp]
    rfl
  | false =>
    rw [if_neg nofun, State.takeQuiesceClaim_of_busy (by exact hempty)]
    refine if_congr (and_congr_right fun _ => ?_) rfl rfl
    exact Nat.sub_ne_zero_iff_lt

end Sys2Proof.Machine

open Sys2Proof Sys2Proof.Machine

/-- Settles O14: every row of a completion is one of `State.complete`, and with each of its ways that ends without a
requester goes one clause. -/
theorem settleDiscardsCompletions : Obligations.SettleDiscardsCompletions := by
  intro i s e hi
  obtain ⟨isFor, u, hexec, hfor, early, handed, hearly, rfl⟩ := exec_completion hi s
  rw [hexec]
  refine ⟨fun hfree => congrArg _ (State.complete_free s e _ _ _ hfree), ?_⟩
  intro t hp ht hcompletes freed off
  refine ⟨fun hm => ?_, fun hm hq => ?_⟩
  · rw [State.complete_settles early handed hp ht ((hfor t).trans hcompletes) hm]
    exact ⟨fun h => congrArg _ (State.examineQuiesce_of_busy (by exact h)), fun hq hempty =>
      congrArg _ ((State.examineQuiesce_of_empty (by exact hq) hempty).trans (State.endQuiesce_eq (by exact hp)))⟩
  · rw [State.complete_ahead early handed hp ht ((hfor t).trans hcompletes) hm hq]
    constructor
    · intro hok
      rw [hok] at hearly
      cases hearly
      rw [State.claim_after_completion (by exact hp) (by exact hq), State.endQuiesce_eq (by exact hp)]
      congr 1
      refine if_congr Iff.rfl rfl ?_
      rw [← ite_not]
      exact if_congr ⟨fun h => Nat.not_lt.1 fun k => h ⟨hm, k⟩, fun h k => Nat.not_lt.2 h k.2⟩ rfl rfl
    · intro hfails
      rw [hfails] at hearly
      have h := hearly.failsAhead ((hfor t).trans hcompletes) (s := freed) hm hq
      rw [State.claim_after_completion (h.pin.trans hp) (by rw [h.engine]; exact hq), h.empty]
      refine ⟨fun hempty => ?_, fun hbusy => ?_⟩
      · obtain ⟨horder, hclaims, hpending⟩ := h.choices
        rw [if_pos hempty, State.endQuiesce_eq (h.pin.trans hp), h.engine, h.fault, horder, hclaims, hpending]
        rfl
      · rw [if_neg (by simp [hbusy])]
        have hheld := congrArg (fun u : EventUnit => u.holding.map HeldEvent.event) h.events
        split <;> rename_i hclaim
        · exact ⟨_, rfl, h.fault, h.engine, h.free e (State.transfer_putTransfer _ _ _), hheld, h.command, h.timebase,
            h.ports, ⟨fun _ => ⟨h.issue.1 hclaim.1, h.lead (h.issue.1 hclaim.1) ▸ hclaim.2⟩, fun _ => hclaim.1⟩,
            fun n => ⟨h.others n, h.faulted n⟩⟩
        · exact ⟨_, rfl, h.fault, h.engine, h.free e (State.transfer_putTransfer _ _ _), hheld, h.command, h.timebase,
            h.ports, ⟨nofun, fun k => absurd ⟨h.issue.2 k.1, (h.lead k.1).symm ▸ k.2⟩ hclaim⟩,
            fun n => ⟨h.others n, h.faulted n⟩⟩

end

section
/-! The reference monitor (sections 4.3 and 4.4). -/

namespace Sys2Proof.Machine

/-- With one report waiting and room for it, it is held (R86, R150). -/
theorem State.offerLost_held {s : State} {claim : LossClaim} (h : s.timebase.lostReports = [claim])
    (hroom : s.roomFor timebaseProducer = true) :
    s.offerLost = { s.accept (.referenceLost claim.generator claim.position) with
      timebase := { s.timebase with lostReports := [] } } := by
  simp [State.offerLost, offerLostFuel, h, hroom, State.accept]

theorem State.offerLost_waiting {s : State} (h : s.placeFree = false) : s.offerLost = s := by
  have hroom : s.roomFor timebaseProducer = false := by simp [State.roomFor, h]
  unfold State.offerLost offerLostFuel
  split <;> simp [hroom]

/-- The loss of a reference before its report is offered, spelled out (R72, R83 to R86). -/
theorem State.loseReference_eq (s : State) (g : GenNo) :
    s.loseReference g =
      let x := s.generator g
      let lost := s.putGenerator g { x with state := .lost, monitor := none }
      { lost with
        ports := Vector.ofFn (fun n => if (s.stream n).generator = g then quietPort else s.port n)
        streamLosses := s.streamLosses ++ [⟨g, x.position⟩]
        schedule := { s.schedule with losses := s.schedule.losses ++ [⟨g, x.position⟩] }
        timebase := { lost.timebase with lostReports := s.timebase.lostReports ++ [⟨g, x.position⟩] } } := by
  unfold State.loseReference
  rw [State.quietBound_eq]
  rfl

/-- Whether there is room for the Timebase Unit is up to the list and the other producers. -/
theorem State.roomFor_timebase {s t : State} (events : t.events = s.events) (command : t.command = s.command)
    (entries : t.schedule.entries = s.schedule.entries) (offering : t.schedule.offering = s.schedule.offering)
    (streams : t.streams = s.streams) : t.roomFor timebaseProducer = s.roomFor timebaseProducer := by
  refine State.roomFor_congr (by rw [events]) fun q => ?_
  refine producer_cases (P := fun q => q ≠ timebaseProducer → t.waits q = s.waits q) (fun _ => ?_) (fun _ => ?_)
    (fun h => absurd rfl h) (fun n _ => ?_) q
  · exact congrArg (fun c : CommandUnit => c.slot.isSome) command
  · show t.offerableClosing.isSome = s.offerableClosing.isSome
    simp only [State.offerableClosing, State.entry?, entries, offering]
  · show (t.stream _).reportWaits = (s.stream _).reportWaits
    simp only [State.stream, streams]

theorem exec_referenceEdge {s : State} {g : GenNo} :
    exec (.referenceEdge g) s = .next (
      if s.isActive = true ∧ (s.generator g).state = .running ∧ (s.generator g).edges + 1 < (s.generator g).divider then
        s.putGenerator g { s.generator g with
          edges := (s.generator g).edges + 1
          monitor := (s.generator g).monitor.map (fun _ => (s.generator g).lossWindow) }
      else s) := by
  refine congrArg Host.Outcome.next (if_congr ?_ rfl rfl)
  simp [and_assoc]

theorem exec_referenceMonitorExpiry {s : State} {g : GenNo} :
    exec (.referenceMonitorExpiry g) s = .next (
      if s.isActive = true ∧ (s.generator g).state = .running ∧ (s.generator g).monitor ≠ none then
        (s.loseReference g).offerLost.finish
      else s) := by
  refine congrArg Host.Outcome.next (if_congr ?_ rfl rfl)
  simp [and_assoc, Option.isSome_iff_ne_none]

end Sys2Proof.Machine

open Sys2Proof Sys2Proof.Machine

/-- Settles O45: the edge by its one condition, the expiry by the loss and the offer of its report. -/
theorem referenceMonitored : Obligations.ReferenceMonitored := by
  intro s g x runs lost held waiting
  rw [exec_referenceEdge, exec_referenceMonitorExpiry]
  refine ⟨fun h hedge => ?_, fun h => ?_, fun h hmonitor hnone hroom => ?_, fun h hmonitor hfull => ?_, fun h => ?_⟩
  · rw [if_pos ⟨h.1, h.2, hedge⟩]
  · rw [if_neg]
    rintro ⟨hactive, hrunning, hedge⟩
    rcases h with h | h
    · exact h ⟨hactive, hrunning⟩
    · exact absurd hedge (Nat.not_lt.2 h)
  · rw [if_pos ⟨h.1, h.2, hmonitor⟩]
    refine ⟨_, rfl, ?_⟩
    have hheld : (s.loseReference g).offerLost = held := by
      rw [State.loseReference_eq]
      refine (State.offerLost_held (claim := ⟨g, x.position⟩) (by simp [hnone, x]) ?_).trans ?_
      · exact (State.roomFor_timebase rfl rfl rfl rfl rfl).trans hroom
      · exact congrArg (fun r => ({ held with timebase := { lost.timebase with lostReports := r } } : State)) hnone.symm
    rw [hheld]
    exact State.finish_grantsTo _
  · rw [if_pos ⟨h.1, h.2, hmonitor⟩]
    refine ⟨_, rfl, ?_⟩
    rw [State.loseReference_eq]
    dsimp only
    rw [State.offerLost_waiting (by exact hfull)]
    exact State.finish_grantsTo _
  · rw [if_neg]
    rintro ⟨hactive, hrunning, hmonitor⟩
    rcases h with h | h
    · exact h ⟨hactive, hrunning⟩
    · exact hmonitor h

end

section
/-! The arbiter: one grant, by the class it serves (section 8.4). -/

namespace Sys2Proof.Machine

/-! ### The circle of streams -/

theorem Config.streams_getElem (i : Nat) (h : i < Config.streams.length) :
    Config.streams[i] = (⟨i, h⟩ : StreamNo) := by
  have hall : ∀ k : StreamNo, Config.streams[k.val]'(k.isLt) = k := by decide
  exact hall ⟨i, h⟩

theorem circular_getElem (last : StreamNo) (i : Nat) (h : i < (circular last).length) :
    (circular last)[i] = last + 1 + ⟨i, h⟩ := by
  simp [circular, Config.streams_getElem]

theorem mem_circular (last n : StreamNo) : n ∈ circular last := by
  refine List.mem_map.2 ⟨n - last - 1, ?_, by abel⟩
  have hall : ∀ k : StreamNo, k ∈ Config.streams := by decide
  exact hall _

/-- The first stream of the circle after `last` that asks is at the least distance from it (R177). -/
theorem find_circular {last n : StreamNo} {asks : StreamNo → Bool} (h : (circular last).find? asks = some n) :
    asks n = true ∧ ∀ m, asks m = true → (n - last - 1).val ≤ (m - last - 1).val := by
  obtain ⟨hasks, i, hi, hn, hbefore⟩ := List.find?_eq_some_iff_getElem.1 h
  have hdistance : n - last - 1 = (⟨i, hi⟩ : StreamNo) := by
    rw [← hn, circular_getElem]
    abel
  refine ⟨hasks, fun m hm => ?_⟩
  by_contra hlt
  rw [hdistance] at hlt
  have hat : (circular last)[(m - last - 1).val]'(m - last - 1).isLt = m := by
    refine (circular_getElem _ _ _).trans ?_
    show last + 1 + (m - last - 1) = m
    abel
  have hne : (!asks ((circular last)[(m - last - 1).val]'(m - last - 1).isLt)) = true :=
    hbefore _ (Nat.lt_of_not_le hlt)
  rw [hat, hm] at hne
  cases hne

theorem find_circular_isSome {last : StreamNo} {asks : StreamNo → Bool} :
    ((circular last).find? asks).isSome = true ↔ ∃ n, asks n = true := by
  rw [List.find?_isSome]
  exact ⟨fun ⟨n, _, h⟩ => ⟨n, h⟩, fun ⟨n, h⟩ => ⟨n, mem_circular last n, h⟩⟩

/-- The free entry is the lowest-numbered one (R172). -/
theorem State.freeEntry_lowest {s : State} {e : TransferId} (h : s.freeEntry = some e) :
    ∀ e' < e, s.transfer e' ≠ none := by
  intro e' hlt hfree
  obtain ⟨_, i, hi, he, hbefore⟩ := List.find?_eq_some_iff_getElem.1 h
  rw [Config.streams_getElem] at he
  have hne := hbefore e'.val (by rw [← he] at hlt; exact hlt)
  rw [Config.streams_getElem] at hne
  simp [hfree] at hne

/-! ### The grant of a data request -/

/-- The transfer that a stream's data request forms, and the context behind it (R52, R53, R61). -/
inductive Stream.DataGrant (c : Stream) (n : StreamNo) : Transfer → Stream → Prop
  | read (r : StagedRecord) (hd : c.direction = .output) (hr : c.current = some r) :
      DataGrant c n (c.formRead n r) (c.recordRead r (c.formRead n r).length).prefetchGaps
  | write (t : Transfer) (ring pass offset : Nat) (hd : c.direction = .capture) (ht : c.formWrite n = some t)
      (hitem : t.item = .frames ring pass offset) : DataGrant c n t (c.recordWrite ring offset t.length)

theorem Stream.formWrite_of_candidateComplete {c : Stream} (n : StreamNo) (h : c.candidateComplete = true) :
    ∃ t ring offset, c.formWrite n = some t ∧ t.item = .frames ring 0 offset := by
  unfold Stream.candidateComplete at h
  split at h
  · cases h
  · rename_i p rest hcandidate
    split at h
    · cases h
    · rename_i r hr
      simp only [Stream.formWrite, hcandidate, hr]
      exact ⟨_, _, _, rfl, rfl⟩

theorem State.grantData_eq {s : State} {n : StreamNo} (h : s.wantsData n = true) (e : TransferId) :
    ∃ t c, s.grantData e n = (s.putTransfer e (some t)).putStream n c ∧ (s.stream n).DataGrant n t c := by
  unfold State.grantData
  dsimp only
  unfold State.wantsData at h
  split <;> rename_i hd
  · obtain ⟨r, hr⟩ : ∃ r, (s.stream n).current = some r := by
      simp only [State.wantsRead, State.wantsWrite, hd, Option.any_eq_true, Bool.or_eq_true, Bool.and_eq_true] at h
      rcases h with ⟨⟨_, r, hr, _⟩, _⟩ | ⟨⟨⟨hd, _⟩, _⟩, _⟩
      · exact ⟨r, hr⟩
      · cases hd
    rw [hr]
    exact ⟨_, _, rfl, .read r hd hr⟩
  · have hcomplete : (s.stream n).candidateComplete = true := by
      simp only [State.wantsRead, State.wantsWrite, hd, Bool.or_eq_true, Bool.and_eq_true] at h
      rcases h with ⟨⟨⟨⟨hd, _⟩, _⟩, _⟩, _⟩ | ⟨_, h⟩
      · cases hd
      · exact h
    obtain ⟨t, ring, offset, ht, hitem⟩ := Stream.formWrite_of_candidateComplete n hcomplete
    rw [ht]
    dsimp only
    rw [hitem]
    exact ⟨_, _, rfl, .write t ring 0 offset hd ht hitem⟩

/-! ### One grant -/

theorem State.grantOne_grantsTo {s u : State} (h : s.grantOne = some u) : s.grantsTo u := by
  obtain ⟨hkeeps, hevents⟩ := s.grantOne_keeps u h
  exact ⟨s.grantOne_apartFromGrants u h, hkeeps.1, hkeeps.2, hevents.imp_right (·.1)⟩

/-- The classes of one grant, in the order of R175. -/
inductive State.Grants (s : State) (e : TransferId) : State → Prop
  | root (hroot : s.wantsRoot = true) : Grants s e (s.putTransfer e (some s.engine.formRead))
  | urgent (n : StreamNo) (t : Transfer) (c : Stream) (hroot : ¬s.wantsRoot = true)
      (hn : (circular s.transfers.lastUrgent).find? (fun n => s.wantsData n && (s.stream n).isUrgent) = some n)
      (h : (s.stream n).DataGrant n t c) :
      Grants s e (let u := (s.putTransfer e (some t)).putStream n c
        { u with transfers := { u.transfers with lastUrgent := n } })
  | events (hroot : ¬s.wantsRoot = true)
      (hurgent : ¬∃ n, (s.wantsData n && (s.stream n).isUrgent) = true) (hevents : s.wantsEventWrite = true) :
      Grants s e ({ s with events := s.events.recordWrite }.putTransfer e (some s.events.formWrite))
  | command (hroot : ¬s.wantsRoot = true)
      (hurgent : ¬∃ n, (s.wantsData n && (s.stream n).isUrgent) = true) (hevents : ¬s.wantsEventWrite = true)
      (hcommand : s.wantsCommand = true) : Grants s e (s.putTransfer e (some s.command.formRead))
  | data (n : StreamNo) (t : Transfer) (c : Stream) (hroot : ¬s.wantsRoot = true)
      (hurgent : ¬∃ n, (s.wantsData n && (s.stream n).isUrgent) = true) (hevents : ¬s.wantsEventWrite = true)
      (hcommand : ¬s.wantsCommand = true) (hn : (circular s.transfers.lastData).find? s.wantsData = some n)
      (h : (s.stream n).DataGrant n t c) :
      Grants s e (let u := (s.putTransfer e (some t)).putStream n c
        { u with transfers := { u.transfers with lastData := n } })
  | record (n : StreamNo) (hroot : ¬s.wantsRoot = true)
      (hurgent : ¬∃ n, (s.wantsData n && (s.stream n).isUrgent) = true) (hevents : ¬s.wantsEventWrite = true)
      (hcommand : ¬s.wantsCommand = true) (hdata : ¬∃ n, s.wantsData n = true)
      (hn : (circular s.transfers.lastRecord).find? (fun n => (s.stream n).readPresented) = some n) :
      Grants s e (let u := s.grantRecord e n
        { u with transfers := { u.transfers with lastRecord := n } })

theorem find_circular_none {last : StreamNo} {asks : StreamNo → Bool} (h : (circular last).find? asks = none) :
    ¬∃ n, asks n = true := by
  rw [← find_circular_isSome (last := last), h]
  exact nofun

theorem State.grantOne_grants {s u : State} (h : s.grantOne = some u) :
    ∃ e, s.freeEntry = some e ∧ s.Grants e u := by
  unfold State.grantOne at h
  split at h
  · cases h
  · rename_i e he
    refine ⟨e, he, ?_⟩
    split at h
    · rename_i hroot
      cases h
      exact .root hroot
    · rename_i hroot
      split at h
      · rename_i n hn
        obtain ⟨t, c, heq, hgrant⟩ := State.grantData_eq (Bool.and_eq_true _ _ ▸ (find_circular hn).1).1 e
        cases h
        rw [heq]
        exact .urgent n t c hroot hn hgrant
      · rename_i hurgent
        have hurgent := find_circular_none hurgent
        split at h
        · rename_i hevents
          cases h
          exact .events hroot hurgent hevents
        · rename_i hevents
          split at h
          · rename_i hcommand
            cases h
            exact .command hroot hurgent hevents hcommand
          · rename_i hcommand
            split at h
            · rename_i n hn
              obtain ⟨t, c, heq, hgrant⟩ := State.grantData_eq (find_circular hn).1 e
              cases h
              rw [heq]
              exact .data n t c hroot hurgent hevents hcommand hn hgrant
            · rename_i hdata
              split at h
              · rename_i n hn
                cases h
                exact .record n hroot hurgent hevents hcommand (find_circular_none hdata) hn
              · cases h

end Sys2Proof.Machine

open Sys2Proof Sys2Proof.Machine

/-- Settles O15, by the class that is served. -/
theorem grantServesFirstClass : Obligations.GrantServesFirstClass := by
  intro s u hgrant asks urgent record next served unserved only dataOf
  obtain ⟨e, hfree, h⟩ := State.grantOne_grants hgrant
  have hother (v : State) (t : Transfer) (hv : v.transfer = (s.putTransfer e (some t)).transfer) (e' : TransferId)
      (hne : e' ≠ e) : v.transfer e' = s.transfer e' := by
    rw [hv, State.transfer_putTransfer_of_ne _ _ hne.symm]
  have hat (v : State) (t : Transfer) (hv : v.transfer = (s.putTransfer e (some t)).transfer) : v.transfer e = some t := by
    rw [hv, State.transfer_putTransfer]
  have hdata (n : StreamNo) (t : Transfer) (c : Stream) (hc : (s.stream n).DataGrant n t c)
      (hevents : u.events = s.events) (hstreams : u.streams = (s.putStream n c).streams) : dataOf n t := by
    cases hc with
    | read r hd hr =>
      exact ⟨fun _ => ⟨r, hr, rfl, hevents, hstreams⟩, fun h => by rw [hd] at h; cases h⟩
    | write t ring pass offset hd ht hitem =>
      exact ⟨fun h => (by rw [hd] at h; cases h), fun _ => ⟨ht, ring, pass, offset, hitem, hevents, hstreams⟩⟩
  have close (t : Transfer) (ht : u.transfer = (s.putTransfer e (some t)).transfer) (P : Transfer → Prop) (hP : P t) :
      ∃ (e : TransferId) (t : Transfer), s.transfer e = none ∧ (∀ e' < e, s.transfer e' ≠ none) ∧ u.transfer e = some t
        ∧ (∀ e', e' ≠ e → u.transfer e' = s.transfer e') ∧ s.grantsTo u ∧ P t :=
    ⟨e, t, s.freeEntry_free e hfree, State.freeEntry_lowest hfree, hat u t ht, hother u t ht,
      State.grantOne_grantsTo hgrant, hP⟩
  cases h with
  | root hroot =>
    refine close s.engine.formRead rfl _ ?_
    rw [if_pos hroot]
    exact ⟨rfl, ⟨rfl, rfl, rfl⟩, rfl, rfl⟩
  | urgent n t c hroot hn hc =>
    refine close t rfl _ ?_
    rw [if_neg hroot, if_pos ⟨n, (find_circular hn).1⟩]
    exact ⟨n, find_circular hn, hdata n t c hc rfl rfl, rfl, rfl, rfl⟩
  | events hroot hurgent hevents =>
    refine close s.events.formWrite rfl _ ?_
    rw [if_neg hroot, if_neg hurgent, if_pos hevents]
    exact ⟨rfl, rfl, rfl, rfl, rfl, rfl⟩
  | command hroot hurgent hevents hcommand =>
    refine close s.command.formRead rfl _ ?_
    rw [if_neg hroot, if_neg hurgent, if_neg hevents, if_pos hcommand]
    exact ⟨rfl, rfl, rfl, rfl, rfl, rfl⟩
  | data n t c hroot hurgent hevents hcommand hn hc =>
    refine close t rfl _ ?_
    rw [if_neg hroot, if_neg hurgent, if_neg hevents, if_neg hcommand, if_pos ⟨n, (find_circular hn).1⟩]
    exact ⟨n, find_circular hn, hdata n t c hc rfl rfl, rfl, rfl, rfl⟩
  | record n hroot hurgent hevents hcommand hnone hn =>
    refine close ((s.stream n).formRecordRead n) rfl _ ?_
    rw [if_neg hroot, if_neg hurgent, if_neg hevents, if_neg hcommand, if_neg hnone]
    exact ⟨n, find_circular hn, rfl, ⟨rfl, rfl⟩, rfl, rfl, rfl⟩

end

section
/-! A notify: what it has read at the end of its step (sections 6.1, 6.2, 2.3 and 8.2). -/

namespace Sys2Proof.Machine

/-! ### Grants go on until no entry is free or nothing is presented -/

/-- The free entries of the table. -/
def State.freeEntries (s : State) : Finset TransferId := Finset.univ.filter (fun e => s.transfer e = none)

theorem State.Grants.occupies {s u : State} {e : TransferId} (h : s.Grants e u) :
    u.transfer e ≠ none ∧ ∀ e', s.transfer e' ≠ none → e' ≠ e → u.transfer e' ≠ none := by
  have at_ (v : State) (t : Transfer) (hv : v.transfer = (s.putTransfer e (some t)).transfer) :
      v.transfer e ≠ none ∧ ∀ e', s.transfer e' ≠ none → e' ≠ e → v.transfer e' ≠ none := by
    rw [hv]
    refine ⟨by rw [State.transfer_putTransfer]; exact nofun, fun e' h' hne => ?_⟩
    rwa [State.transfer_putTransfer_of_ne _ _ hne.symm]
  cases h with
  | root => exact at_ _ _ rfl
  | urgent n t => exact at_ _ t rfl
  | events => exact at_ _ s.events.formWrite rfl
  | command => exact at_ _ _ rfl
  | data n t => exact at_ _ t rfl
  | record n => exact at_ _ ((s.stream n).formRecordRead n) rfl

/-- No grant changes the Command Unit. -/
theorem State.Grants.command_eq {s u : State} {e : TransferId} (h : s.Grants e u) : u.command = s.command := by
  cases h <;> rfl

theorem State.grantOne_freeEntries {s u : State} (h : s.grantOne = some u) :
    u.freeEntries.card < s.freeEntries.card := by
  obtain ⟨e, hfree, hgrants⟩ := State.grantOne_grants h
  obtain ⟨hat, hother⟩ := hgrants.occupies
  refine Finset.card_lt_card (Finset.ssubset_iff_of_subset ?_ |>.2 ⟨e, ?_, ?_⟩)
  · intro e' he'
    simp only [State.freeEntries, Finset.mem_filter, Finset.mem_univ, true_and] at he' ⊢
    by_contra hne
    rcases eq_or_ne e' e with rfl | hd
    · exact hat he'
    · exact hother e' hne hd he'
  · simpa [State.freeEntries] using s.freeEntry_free e hfree
  · simpa [State.freeEntries] using hat

theorem grantFuel_stops (k : Nat) (s : State) (h : s.freeEntries.card ≤ k) : (grantFuel k s).grantOne = none := by
  induction k generalizing s with
  | zero =>
    cases hg : s.grantOne with
    | none => exact hg
    | some u => exact absurd (State.grantOne_freeEntries hg) (by omega)
  | succ k ih =>
    unfold grantFuel
    split
    · assumption
    · rename_i u hu
      exact ih u (by have := State.grantOne_freeEntries hu; omega)

theorem State.freeEntries_card (s : State) : s.freeEntries.card ≤ 8 := s.freeEntries.card_le_univ

theorem grantFuel_command (k : Nat) (s : State) : (grantFuel k s).command = s.command := by
  induction k generalizing s with
  | zero => rfl
  | succ k ih =>
    unfold grantFuel
    split
    · rfl
    · rename_i u hu
      obtain ⟨e, _, hgrants⟩ := State.grantOne_grants hu
      exact (ih u).trans hgrants.command_eq

theorem State.transfer_of_freeEntry_none {s : State} (h : s.freeEntry = none) (e : TransferId) : s.transfer e ≠ none := by
  have hall : ∀ e : TransferId, e ∈ Config.streams := by decide
  simpa using List.find?_eq_none.1 h e (hall e)

/-- With a record read presented, a grant is possible as long as an entry is free. -/
theorem State.occupied_of_grantOne_none {s : State} {n : StreamNo} (h : s.grantOne = none)
    (hn : (s.stream n).readPresented = true) (e : TransferId) : s.transfer e ≠ none := by
  refine State.transfer_of_freeEntry_none ?_ e
  by_contra hfree
  obtain ⟨e', he'⟩ := Option.ne_none_iff_exists'.1 hfree
  obtain ⟨m, hm⟩ := Option.isSome_iff_exists.1
    ((find_circular_isSome (last := s.transfers.lastRecord) (asks := fun n => (s.stream n).readPresented)).2 ⟨n, hn⟩)
  unfold State.grantOne at h
  simp only [he', hm] at h
  repeat (split at h; (cases h))
  cases h

/-! ### What is presented -/

/-- The stream asks for a record, apart from a read of its that is under way (R30, R32, R64). -/
def Stream.asksRecord (c : Stream) : Prop :=
  c.isTaking = true ∧ c.staging.length < 16 ∧ c.producer ≠ c.consumer ∧ (∀ r ∈ c.staging, r.isEnd = false)
    ∧ c.inTail = false ∧ (c.state = .draining → c.drainLimit ≠ some c.consumer)

theorem State.wantsRecord_iff (s : State) (n : StreamNo) :
    s.wantsRecord n = true ↔ (s.stream n).asksRecord ∧ (s.stream n).readPresented = false
      ∧ s.outstanding (.streamRecord n) = 0 := by
  simp only [State.wantsRecord, Stream.asksRecord, Bool.and_eq_true, Bool.not_eq_true', beq_iff_eq, bne_iff_ne, ne_eq,
    decide_eq_true_eq, List.any_eq_false, Bool.not_eq_true, Bool.and_eq_false_imp, beq_eq_false_iff_ne]
  tauto

/-- Grants do not change whether a stream asks. -/
theorem Stream.asksRecord_congr {c d : Stream} (h : d.apartFromGrants = c.apartFromGrants) (hc : c.asksRecord) :
    d.asksRecord := by
  have hstaging : d.staging.map (StagedRecord.apartFromGrants d.direction)
      = c.staging.map (StagedRecord.apartFromGrants c.direction) := by
    have k := congrArg Stream.staging h
    exact k
  have hend (c : Stream) : (∀ r ∈ c.staging, r.isEnd = false)
      ↔ ∀ r ∈ c.staging.map (StagedRecord.apartFromGrants c.direction), r.isEnd = false := by
    rw [List.forall_mem_map]
    refine forall₂_congr fun r _ => ?_
    unfold StagedRecord.apartFromGrants
    split <;> rfl
  obtain ⟨htaking, hlength, hindex, hrecords, htail, hlimit⟩ := hc
  have hbody : d.state = c.state ∧ d.producer = c.producer ∧ d.consumer = c.consumer ∧ d.drainLimit = c.drainLimit
      ∧ d.stopOwed = c.stopOwed ∧ d.pendingReport = c.pendingReport := by
    refine ⟨?_, ?_, ?_, ?_, ?_, ?_⟩
    · have k := congrArg Stream.state h
      exact k
    · have k := congrArg Stream.producer h
      exact k
    · have k := congrArg Stream.consumer h
      exact k
    · have k := congrArg Stream.drainLimit h
      exact k
    · have k := congrArg Stream.stopOwed h
      exact k
    · have k := congrArg Stream.pendingReport h
      exact k
  obtain ⟨hstate, hproducer, hconsumer, hdrain, hstop, hpending⟩ := hbody
  refine ⟨?_, ?_, ?_, ?_, ?_, ?_⟩
  · rw [Stream.isTaking, hstate]
    exact htaking
  · have := congrArg List.length hstaging
    rw [List.length_map, List.length_map] at this
    omega
  · rw [hproducer, hconsumer]
    exact hindex
  · rw [hend, hstaging, ← hend]
    exact hrecords
  · rw [Stream.inTail, hstop, hpending]
    exact htail
  · rw [hstate, hdrain, hconsumer]
    exact hlimit

theorem State.present_transfers (s : State) (m : StreamNo) : (s.present m).transfers = s.transfers := by
  unfold State.present
  dsimp only
  split <;> rfl

theorem Stream.prefetchGaps_readPresented (c : Stream) : c.prefetchGaps.readPresented = c.readPresented := by
  have gaps (k : Nat) (c : Stream) : (placeGaps k c).readPresented = c.readPresented := by
    induction k generalizing c with
    | zero => rfl
    | succ k ih =>
      unfold placeGaps
      split
      · rfl
      · dsimp only
        split
        · exact (ih _).trans rfl
        · rfl
  unfold Stream.prefetchGaps
  split
  · exact gaps _ c
  · rfl

/-- A presented read stays presented until its grant. -/
theorem State.present_keepsRead (s : State) (m n : StreamNo) (h : (s.stream n).readPresented = true) :
    ((s.present m).stream n).readPresented = true := by
  have hprefetch : ((s.modifyStream m Stream.prefetchGaps).stream n).readPresented = true := by
    unfold State.modifyStream
    rcases eq_or_ne m n with rfl | hne
    · rw [State.stream_putStream, Stream.prefetchGaps_readPresented]
      exact h
    · rw [State.stream_putStream_of_ne _ _ hne]
      exact h
  unfold State.present
  dsimp only
  split
  · rw [State.modifyStream]
    rcases eq_or_ne m n with rfl | hne
    · rw [State.stream_putStream]
    · rw [State.stream_putStream_of_ne _ _ hne]
      exact hprefetch
  · exact hprefetch

theorem State.present_presents {s : State} {n : StreamNo} (h : (s.stream n).asksRecord)
    (h0 : s.outstanding (.streamRecord n) = 0) : ((s.present n).stream n).readPresented = true := by
  by_cases hread : (s.stream n).readPresented = true
  · exact s.present_keepsRead n n hread
  · unfold State.present
    dsimp only
    rw [if_pos]
    · rw [State.modifyStream, State.stream_putStream]
    · rw [State.wantsRecord_iff, State.modifyStream, State.stream_putStream, Stream.prefetchGaps_readPresented]
      exact ⟨Stream.asksRecord_congr (Stream.prefetchGaps_apartFromGrants _) h, by simpa using hread, h0⟩

theorem foldl_present_presents {n : StreamNo} (l : List StreamNo) (s : State) (h : (s.stream n).asksRecord)
    (h0 : s.outstanding (.streamRecord n) = 0) (hn : n ∈ l) :
    ((l.foldl State.present s).stream n).readPresented = true := by
  induction l generalizing s with
  | nil => cases hn
  | cons m l ih =>
    rw [List.foldl_cons]
    rcases eq_or_ne n m with rfl | hne
    · exact State.foldl_kept (P := fun u => (u.stream n).readPresented = true) _ _
        (fun u k _ hu => u.present_keepsRead k n hu) (State.present_presents h h0)
    · refine ih _ (Stream.asksRecord_congr ?_ h) ?_ ((List.mem_cons.1 hn).resolve_left hne)
      · rw [← State.apartFromGrants_stream, State.present_apartFromGrants, State.apartFromGrants_stream]
      · rw [State.outstanding, State.present_transfers]
        exact h0

/-! ### What becomes of a presented record read -/

theorem Stream.DataGrant.readPresented {c d : Stream} {n : StreamNo} {t : Transfer} (h : c.DataGrant n t d) :
    d.readPresented = c.readPresented := by
  cases h with
  | read => exact Stream.prefetchGaps_readPresented _
  | write => rfl

theorem Stream.formRecordRead_congr {c d : Stream} (n : StreamNo) (h : d.apartFromGrants = c.apartFromGrants) :
    d.formRecordRead n = c.formRecordRead n := by
  have hconsumer := congrArg Stream.consumer h
  have hbase := congrArg Stream.ringBase h
  simp only [Stream.apartFromGrants] at hconsumer hbase
  simp only [Stream.formRecordRead, hconsumer, hbase]

/-- One grant leaves a read presented, or it is that read. -/
theorem State.Grants.read {s u : State} {e : TransferId} (h : s.Grants e u) {n : StreamNo}
    (hn : (s.stream n).readPresented = true) :
    (u.stream n).readPresented = true ∨ u.transfer e = some ((s.stream n).formRecordRead n) := by
  have data (m : StreamNo) (t : Transfer) (c : Stream) (hc : (s.stream m).DataGrant m t c) (v : State)
      (hv : v.streams = (s.putStream m c).streams) : (v.stream n).readPresented = true := by
    have hstream : v.stream n = (s.putStream m c).stream n := by simp only [State.stream, hv]
    rw [hstream]
    rcases eq_or_ne m n with rfl | hne
    · rw [State.stream_putStream, hc.readPresented]
      exact hn
    · rw [State.stream_putStream_of_ne _ _ hne]
      exact hn
  cases h with
  | root => exact .inl hn
  | urgent m t c _ _ hc => exact .inl (data m t c hc _ rfl)
  | events => exact .inl hn
  | command => exact .inl hn
  | data m t c _ _ _ _ _ hc => exact .inl (data m t c hc _ rfl)
  | record m =>
    rcases eq_or_ne m n with rfl | hne
    · exact .inr (State.transfer_putTransfer s e _)
    · exact .inl ((congrArg Stream.readPresented (State.stream_putStream_of_ne (s.putTransfer e _) _ hne)).trans hn)

theorem grantFuel_read (k : Nat) {s : State} {n : StreamNo} (hn : (s.stream n).readPresented = true) :
    ((grantFuel k s).stream n).readPresented = true
      ∨ ∃ e, s.transfer e = none ∧ (grantFuel k s).transfer e = some ((s.stream n).formRecordRead n) := by
  induction k generalizing s with
  | zero => exact .inl hn
  | succ k ih =>
    unfold grantFuel
    split
    · exact .inl hn
    · rename_i u hu
      obtain ⟨e, hfree, hgrants⟩ := State.grantOne_grants hu
      rcases hgrants.read hn with hread | hread
      · refine (ih hread).imp_right ?_
        rintro ⟨e', he', ht⟩
        refine ⟨e', ?_, ?_⟩
        · by_contra hne
          obtain ⟨r, hr⟩ := Option.ne_none_iff_exists'.1 hne
          rw [(s.grantOne_keeps u hu).1.1 e' r hr] at he'
          cases he'
        · rw [ht, Stream.formRecordRead_congr]
          rw [← State.apartFromGrants_stream, s.grantOne_apartFromGrants u hu, State.apartFromGrants_stream]
      · exact .inr ⟨e, s.freeEntry_free e hfree, (grantFuel_keeps k u).1.1 e _ hread⟩

/-- The requests that a step of ACTIVE presents. -/
def State.presented (s : State) : State := (Config.streams.foldl State.present s).presentCommand

theorem State.presentCommand_streams (s : State) :
    s.presentCommand.streams = s.streams ∧ s.presentCommand.transfers = s.transfers := by
  unfold State.presentCommand
  dsimp only
  split
  · exact ⟨rfl, rfl⟩
  · split <;> exact ⟨rfl, rfl⟩

theorem State.presented_transfers (s : State) : s.presented.transfers = s.transfers := by
  refine (State.presentCommand_streams _).2.trans ?_
  exact State.foldl_kept (P := fun u => u.transfers = s.transfers) _ _
    (fun u n _ hu => (u.present_transfers n).trans hu) rfl

theorem State.finish_of_active {s : State} (h : s.isActive = true) :
    s.finish = if s.transfers.mode = .issue then grantFuel 8 s.presented else s.presented := by
  have hmode := congrArg TransferUnit.mode s.presented_transfers
  rw [State.presented] at hmode ⊢
  unfold State.finish
  rw [if_pos h]
  refine if_congr ?_ rfl rfl
  rw [beq_iff_eq, hmode]

theorem State.presented_stream (s : State) (n : StreamNo) :
    (s.presented.stream n).apartFromGrants = (s.stream n).apartFromGrants := by
  rw [← State.apartFromGrants_stream, State.presented, State.presentCommand_apartFromGrants,
    foldl_present_apartFromGrants, State.apartFromGrants_stream]

/-- The record read that a stream asks for is presented, and it stays so until its grant: then every entry is occupied,
or it has one that was free (R30, R175). -/
theorem State.finish_read {s : State} {n : StreamNo} (ha : s.isActive = true) (h : (s.stream n).asksRecord)
    (h0 : s.outstanding (.streamRecord n) = 0) :
    (s.finish.stream n).readPresented = true ∧ (s.transfers.mode = .issue → ∀ e, s.finish.transfer e ≠ none)
      ∨ ∃ e, s.transfer e = none ∧ s.finish.transfer e = some ((s.stream n).formRecordRead n) := by
  have hall : ∀ n : StreamNo, n ∈ Config.streams := by decide
  have hpresented : (s.presented.stream n).readPresented = true := by
    simp only [State.presented, State.stream, (State.presentCommand_streams _).1]
    exact foldl_present_presents _ s h h0 (hall n)
  rw [State.finish_of_active ha]
  split
  · rcases grantFuel_read 8 hpresented with hread | ⟨e, hfree, ht⟩
    · exact .inl ⟨hread, fun _ e => State.occupied_of_grantOne_none (grantFuel_stops 8 _ (State.freeEntries_card _)) hread e⟩
    · refine .inr ⟨e, ?_, ?_⟩
      · rw [← hfree, State.transfer, State.transfer, State.presented_transfers]
      · rw [ht, Stream.formRecordRead_congr n (s.presented_stream n)]
  · rename_i hmode
    exact .inl ⟨hpresented, fun hm => absurd hm hmode⟩

/-! ### The Command Unit's read -/

theorem Stream.state_of_apartFromGrants {c d : Stream} (h : d.apartFromGrants = c.apartFromGrants) : d.state = c.state := by
  have k := congrArg Stream.state h
  exact k

theorem State.wantsData_of_closed {s : State} {n : StreamNo} (h : (s.stream n).state = .closed) :
    s.wantsData n = false := by
  simp [State.wantsData, State.wantsRead, State.wantsWrite, Stream.isTaking, Stream.isRunning, h]

theorem find_circular_eq_none {last : StreamNo} {asks : StreamNo → Bool} (h : ∀ n, asks n = false) :
    (circular last).find? asks = none :=
  List.find?_eq_none.2 fun n _ => by rw [h n]; exact nofun

/-- With no higher class asking, the first grant of a step with the Command Unit READY is its read (R117, R175). -/
theorem State.finish_commandRead {s : State} (ha : s.isActive = true) (hm : s.transfers.mode = .issue)
    (hindex : s.command.producer ≠ s.command.consumer) (hready : s.command.phase = .ready)
    (hempty : ∀ e, s.transfer e = none) (hclosed : ∀ n, (s.stream n).state = .closed) (hheld : s.events.holding = []) :
    s.finish.command.phase = .fetching ∧ s.finish.transfer 0 = some s.command.formRead := by
  have hfold : (Config.streams.foldl State.present s).command = s.command
      ∧ (Config.streams.foldl State.present s).engine = s.engine ∧ (Config.streams.foldl State.present s).pin = s.pin
      ∧ (Config.streams.foldl State.present s).events = s.events := by
    refine State.foldl_kept (P := fun u => u.command = s.command ∧ u.engine = s.engine ∧ u.pin = s.pin
      ∧ u.events = s.events) _ _ (fun u n _ hu => ?_) ⟨rfl, rfl, rfl, rfl⟩
    unfold State.present
    dsimp only
    split <;> exact hu
  obtain ⟨hcommand, hengine, hpin, hevents⟩ := hfold
  have hpresented : s.presented = { Config.streams.foldl State.present s with
      command := { s.command with phase := .fetching } } := by
    unfold State.presented State.presentCommand
    dsimp only
    rw [hcommand, if_pos (by simp [hready, hindex])]
  have htransfer (e : TransferId) : s.presented.transfer e = none := by
    rw [← hempty e, State.transfer, State.transfer, State.presented_transfers]
  have hquiet (n : StreamNo) : s.presented.wantsData n = false :=
    State.wantsData_of_closed ((Stream.state_of_apartFromGrants (s.presented_stream n)).trans (hclosed n))
  have hgrant : s.presented.grantOne = some (s.presented.putTransfer 0 (some s.command.formRead)) := by
    have hfree : s.presented.freeEntry = some 0 := by simp [State.freeEntry, htransfer, Config.streams]
    have hactive := State.active_of_isActive ha
    have hroot : s.presented.wantsRoot = false := by
      rw [hpresented]
      simp [State.wantsRoot, hengine, hactive]
    have hevent : s.presented.wantsEventWrite = false := by
      rw [hpresented]
      simp [State.wantsEventWrite, hevents, hheld]
    have hwants : s.presented.wantsCommand = true := by
      have hphase : s.presented.command.phase = .fetching := by rw [hpresented]
      have hactive : s.presented.isActive = true := by
        rw [← ha, hpresented, State.isActive, State.isActive, hengine, hpin]
      simp only [State.wantsCommand, hactive, hphase, State.outstanding_of_empty htransfer, beq_self_eq_true,
        Bool.and_self]
    have hurgent : (circular s.presented.transfers.lastUrgent).find?
        (fun n => s.presented.wantsData n && (s.presented.stream n).isUrgent) = none :=
      find_circular_eq_none fun n => by rw [hquiet n, Bool.false_and]
    have hform : s.presented.command.formRead = s.command.formRead := by rw [hpresented]; rfl
    unfold State.grantOne
    simp only [hfree, hroot, hurgent, hevent, hwants, hform]
    rfl
  rw [State.finish_of_active ha, if_pos hm]
  constructor
  · rw [grantFuel_command, hpresented]
  · unfold grantFuel
    rw [hgrant]
    exact (grantFuel_keeps 7 _).1.1 0 _ (State.transfer_putTransfer _ _ _)

end Sys2Proof.Machine

open Sys2Proof Sys2Proof.Machine

/-- Settles O7: each ring's owner takes its index, and the step closes with what that lets it read. -/
theorem ringNotifySetsProducer : Obligations.RingNotifySetsProducer := by
  intro s w hp hactive
  have ha : s.isActive = true := by simp [State.isActive, hp, hactive]
  constructor
  · intro hw hindex
    rw [exec_controlRingNotify w hp, State.writeRingNotify_command hactive hw, State.notifyCommand, if_pos hindex]
    refine ⟨_, rfl, ?_, State.finish_grantsTo _, fun hm hne hready hempty hclosed hheld => ?_⟩
    · have hproducer := congrArg CommandUnit.producer (congrArg State.command (State.finish_apartFromGrants
        { s with command := { s.command with producer := notifyIndex w } }))
      exact hproducer
    · exact State.finish_commandRead ha hm hne hready hempty hclosed hheld
  · intro n hw hopen hindex c
    rw [exec_streamRingNotify w hp, State.writeRingNotify_stream n hactive hw, State.notifyStream,
      if_pos (by simpa using ⟨hopen, hindex⟩)]
    let d : Stream := { c with producer := notifyIndex w }
    have hd : (s.putStream n d).stream n = d := State.stream_putStream _ _ _
    refine ⟨(s.putStream n d).finish, rfl, ?_, State.finish_grantsTo _,
      fun htaking hnone hlength hne hend htail hlimit => ?_⟩
    · have hproducer := congrArg Stream.producer ((s.putStream n d).finish_stream n)
      rw [hd] at hproducer
      exact hproducer
    · have hrecords (r : StagedRecord) (hr : r ∈ c.staging) : r.isEnd = false := by
        have := hend r hr
        simp only [StagedRecord.isEnd, Bool.and_eq_false_imp, Option.isNone_iff_eq_none]
        exact this
      have hasks : d.asksRecord := ⟨htaking, hlength, hne, hrecords, htail, hlimit⟩
      have hnone : (s.putStream n d).outstanding (.streamRecord n) = 0 :=
        ((s.putStream n d).outstanding_eq_zero_iff _).2 hnone
      have hread := State.finish_read (s := s.putStream n d) (n := n) ha (hd.symm ▸ hasks) hnone
      rw [hd] at hread
      exact hread

end

section
/-! The event write and the bytes of its entries (sections 7.3 and 10.5). -/

namespace Sys2Proof.Machine

/-! ### Bytes by the table of their fields -/

theorem leBytes_getD (n x j : Nat) (h : j < n) : (leBytes n x).getD j 0 = BitVec.ofNat 8 (x / 256 ^ j) := by
  induction n generalizing x j with
  | zero => omega
  | succ n ih =>
    cases j with
    | zero => simp [leBytes]
    | succ j =>
      rw [leBytes, List.getD_cons_succ, ih _ _ (by omega), Nat.div_div_eq_div_mul, Nat.pow_succ, Nat.mul_comm]

theorem padTo_getD (n : Nat) (bytes : List Byte) (j : Nat) (h : j < n) : (padTo n bytes).getD j 0 = bytes.getD j 0 := by
  unfold padTo
  simp only [List.getD_eq_getElem?_getD, List.getElem?_take_of_lt h]
  rcases Nat.lt_or_ge j bytes.length with hj | hj
  · rw [List.getElem?_append_left hj]
  · rw [List.getElem?_append_right hj, List.getElem?_eq_none hj, List.getElem?_replicate_of_lt (by omega)]
    rfl

/-- Byte `j` of an entry whose fields are `(offset, size, value)`. -/
def fieldByte (fields : List (Nat × Nat × Nat)) (j : Nat) : Byte :=
  match fields.find? (fun (offset, size, _) => offset ≤ j && j < offset + size) with
  | some (offset, _, value) => BitVec.ofNat 8 (value / 256 ^ (j - offset))
  | none => 0

theorem fieldByte_cons_covered {offset size value j : Nat} (fields : List (Nat × Nat × Nat)) (h : offset ≤ j)
    (hj : j < offset + size) :
    fieldByte ((offset, size, value) :: fields) j = BitVec.ofNat 8 (value / 256 ^ (j - offset)) := by
  simp [fieldByte, h, hj]

theorem fieldByte_cons_beyond {offset size value j : Nat} (fields : List (Nat × Nat × Nat)) (h : offset + size ≤ j) :
    fieldByte ((offset, size, value) :: fields) j = fieldByte fields j := by
  simp [fieldByte, Nat.not_lt.2 h]

theorem fieldByte_before {j : Nat} (fields : List (Nat × Nat × Nat)) (h : ∀ f ∈ fields, j < f.1) :
    fieldByte fields j = 0 := by
  have hnone : fields.find? (fun (offset, size, _) => offset ≤ j && j < offset + size) = none :=
    List.find?_eq_none.2 fun f hf => by simp [Nat.not_le.2 (h f hf)]
  rw [fieldByte, hnone]

/-- The bytes from `start` on are those of the fields, all of which lie there. -/
structure Lays (fields : List (Nat × Nat × Nat)) (start : Nat) (bytes : List Byte) : Prop where
  within : ∀ f ∈ fields, start ≤ f.1
  byte : ∀ k, bytes.getD k 0 = fieldByte fields (start + k)

namespace Lays

variable {fields : List (Nat × Nat × Nat)} {start : Nat} {bytes : List Byte}

theorem nil (start : Nat) : Lays [] start [] := ⟨nofun, fun _ => rfl⟩

theorem getD_append (n x k : Nat) (bytes : List Byte) :
    (leBytes n x ++ bytes).getD k 0 = if k < n then BitVec.ofNat 8 (x / 256 ^ k) else bytes.getD (k - n) 0 := by
  split
  · rename_i h
    rw [List.getD_append _ _ _ _ (by simpa using h), leBytes_getD n x k h]
  · rename_i h
    rw [List.getD_append_right _ _ _ _ (by simpa using h), leBytes_length]

/-- A field stands before the rest. -/
theorem field {n : Nat} (x : Nat) (h : Lays fields (start + n) bytes) :
    Lays ((start, n, x) :: fields) start (leBytes n x ++ bytes) where
  within := by
    rintro f (_ | ⟨_, hf⟩)
    · exact Nat.le_refl _
    · exact Nat.le_trans (Nat.le_add_right _ _) (h.within f hf)
  byte k := by
    rw [getD_append]
    split
    · rename_i hk
      rw [fieldByte_cons_covered _ (by omega) (by omega), Nat.add_sub_cancel_left]
    · rename_i hk
      rw [h.byte, fieldByte_cons_beyond _ (by omega)]
      congr 1
      omega

/-- Bytes that no field holds stand before the rest, and are zero. -/
theorem zeros {n : Nat} (h : Lays fields (start + n) bytes) : Lays fields start (leBytes n 0 ++ bytes) where
  within f hf := Nat.le_trans (Nat.le_add_right _ _) (h.within f hf)
  byte k := by
    rw [getD_append]
    split
    · rename_i hk
      rw [fieldByte_before _ fun f hf => Nat.lt_of_lt_of_le (by omega) (h.within f hf)]
      simp
    · rename_i hk
      rw [h.byte]
      congr 1
      omega

theorem last (start n x : Nat) : Lays [(start, n, x)] start (leBytes n x) := by
  rw [← List.append_nil (leBytes n x)]
  exact field x (nil _)

/-- One field of one size for each item. -/
theorem items {α : Type} (items : List α) (start size : Nat) (value : α → Nat) (g : Nat) :
    Lays ((items.zipIdx g).map (fun (m, g) => (start + size * g, size, value m))) (start + size * g)
      (items.flatMap (fun m => leBytes size (value m))) := by
  induction items generalizing g with
  | nil => exact nil _
  | cons m items ih => exact field (value m) (by have := ih (g + 1); rwa [Nat.mul_succ, ← Nat.add_assoc] at this)

end Lays

/-! ### The entries of the Event Ring -/

theorem leBytes_one (b : Byte) : leBytes 1 b.toNat = [b] := by
  simp [leBytes]

theorem padTo_eq_flatMap (n : Nat) (bytes : List Byte) :
    padTo n bytes = (List.range n).flatMap (fun k => leBytes 1 (bytes.getD k 0).toNat) := by
  simp only [leBytes_one]
  rw [← List.map_eq_flatMap]
  refine List.ext_getElem (by simp) fun j hj _ => ?_
  rw [List.getElem_map, List.getElem_range, ← padTo_getD n bytes j (by simpa using hj), List.getD_eq_getElem _ _ hj]

/-- The result of a CMD_DONE is a field for each of its bytes. -/
theorem Lays.result (bytes : List Byte) :
    Lays ((List.range 16).map (fun k => (8 + k, 1, (bytes.getD k 0).toNat))) 8 (padTo 16 bytes) := by
  rw [padTo_eq_flatMap]
  exact Lays.items (List.range 16) 8 1 (fun k => (bytes.getD k 0).toNat) 0

theorem streamBit_toNat (n : StreamNo) : (streamBit n).toNat = 2 ^ n.val := by
  revert n
  decide

theorem marksCode_eq (marks : List (GeneratorState × Position)) (g : Nat) :
    marksCode marks * 4 ^ g = ((marks.zipIdx g).map (fun (m, g) => generatorStateCode m.1 * 4 ^ g)).sum := by
  induction marks generalizing g with
  | nil => simp [marksCode]
  | cons m marks ih =>
    rw [List.zipIdx_cons, List.map_cons, List.sum_cons, ← ih, marksCode]
    ring

/-- The content of an entry by the table of section 10.5. -/
theorem eventContent_lays (e : Event) : Lays (eventFields e) 2 (eventContent e) := by
  cases e with
  | cmdDone seq index status result =>
    simp only [eventContent, List.append_assoc]
    exact .field _ (.zeros (.field _ (.field _ (.result result))))
  | bufferDone stream tag ring status reject moved first quiet =>
    simp only [eventContent, List.append_assoc]
    exact .field _ (.field _ (.field _ (.zeros (.field _ (.field _ (.last _ _ _))))))
  | startDone entry generator streams position late =>
    simp only [eventContent, List.append_assoc]
    exact .field _ (.field _ (.field _ (.field _ (.zeros (.last _ _ _)))))
  | entryStopDone entry generator streams reason position late =>
    simp only [eventContent, List.append_assoc]
    exact .field _ (.field _ (.field _ (.field _ (.zeros (.last _ _ _)))))
  | streamStopDone stream generator reason position =>
    simp only [eventContent, List.append_assoc, streamBit_toNat]
    exact .field _ (.field _ (.zeros (.field _ (.zeros (.last _ _ _)))))
  | entryCleared entry kind reason =>
    simp only [eventContent, List.append_assoc]
    exact .zeros (.field _ (.field _ (.last _ _ _)))
  | streamFault stream cause position =>
    simp only [eventContent, List.append_assoc]
    exact .field _ (.field _ (.zeros (.last _ _ _)))
  | referenceLost generator position =>
    simp only [eventContent, List.append_assoc]
    exact .field _ (.zeros (.last _ _ _))
  | starveBegin stream position missed =>
    simp only [eventContent, List.append_assoc]
    exact .field _ (.zeros (.field _ (.zeros (.last _ _ _))))
  | starveEnd stream position length missed =>
    simp only [eventContent, List.append_assoc]
    exact .field _ (.zeros (.field _ (.zeros (.field _ (.last _ _ _)))))
  | mark stream tag position missed =>
    simp only [eventContent, List.append_assoc]
    exact .field _ (.zeros (.field _ (.zeros (.field _ (.zeros (.last _ _ _))))))
  | trigger line edge missed marks =>
    have hmarks := marksCode_eq marks 0
    rw [Nat.pow_zero, Nat.mul_one] at hmarks
    rw [eventFields, ← hmarks]
    simp only [eventContent, List.append_assoc]
    exact .field _ (.field _ (.field _ (.field _ (.zeros (.items marks 8 6 (fun m => m.2.toNat) 0)))))

theorem eventKindCode_pos (e : Event) : BitVec.ofNat 8 (eventKindCode e) ≠ 0 := by
  cases e <;> simp [eventKindCode]

/-- Behind its kind and its cycle flag an entry is its content, and zero where that ends (R199). -/
theorem encodeEvent_getD (cycle : Bool) (e : Event) (j : Nat) (h : j < 32) :
    (encodeEvent cycle e).getD j 0
      = if j = 0 then BitVec.ofNat 8 (eventKindCode e)
        else if j = 1 then (if cycle then 1 else 0)
        else eventByte e j := by
  rw [encodeEvent, padTo_getD _ _ _ h, List.append_assoc, Lays.getD_append]
  match j with
  | 0 => simp
  | 1 =>
    rw [if_neg (by omega), Lays.getD_append]
    cases cycle <;> rfl
  | j + 2 =>
    rw [if_neg (by omega), Lays.getD_append, if_neg (by omega), if_neg (by omega), if_neg (by omega)]
    refine ((eventContent_lays e).byte _).trans ?_
    show fieldByte (eventFields e) _ = fieldByte (eventFields e) _
    congr 1
    omega

/-! ### The event write -/

/-- The entries of one write end at the next 4 KiB boundary at the latest (R154). -/
theorem EventUnit.address_toNat {e : EventUnit} {i : Nat} (h : i < e.size) (hring : e.base.toNat + 32 * e.size ≤ 2 ^ 64) :
    (e.address i).toNat = e.base.toNat + 32 * i := by
  rw [EventUnit.address, BitVec.toNat_add, BitVec.toNat_ofNat, Nat.mod_eq_of_lt (a := 32 * i) (by omega),
    Nat.mod_eq_of_lt (by omega)]

theorem EventUnit.writeCount_eq {e : EventUnit} (h : e.writeIndex < e.size)
    (hring : e.base.toNat + 32 * e.size ≤ 2 ^ 64) :
    e.writeCount = min (min e.holding.length 4) (min e.free (min (e.size - e.writeIndex)
      ((4096 - (e.base.toNat + 32 * e.writeIndex) % 4096) / 32))) := by
  rw [EventUnit.writeCount, bytesToBoundary, EventUnit.address_toNat h hring]
  rfl

theorem flatMap_encodeEvent_length (cycle : Bool) (held : List HeldEvent) :
    (held.flatMap (fun h => encodeEvent cycle h.event)).length = 32 * held.length := by
  induction held with
  | nil => rfl
  | cons h held ih =>
    rw [List.flatMap_cons, List.length_append, ih, encodeEvent, padTo_length, List.length_cons]
    omega

/-- The grant of an event write with its index turned at the ring's end (R155). -/
theorem EventUnit.recordWrite_eq {e : EventUnit} (h : e.writeIndex + e.writeCount ≤ e.size) :
    e.recordWrite = { e with
      holding := (e.holding.take e.writeCount).map (fun h : HeldEvent => { h with inWrite := true })
        ++ e.holding.drop e.writeCount
      inFlight := e.inFlight + e.writeCount
      writeIndex := (e.writeIndex + e.writeCount) % e.size
      cycle := if e.writeIndex + e.writeCount = e.size then !e.cycle else e.cycle } := by
  unfold EventUnit.recordWrite
  rcases Nat.eq_or_lt_of_le h with heq | hlt
  · simp [heq]
  · simp [Nat.mod_eq_of_lt hlt, Nat.ne_of_lt hlt]

end Sys2Proof.Machine

open Sys2Proof Sys2Proof.Machine

/-- Settles O17: the write's limits in numbers, and its entries by the table of their fields. -/
theorem eventWriteWithinLimits : Obligations.EventWriteWithinLimits := by
  refine ⟨fun e hholding hfree hindex haligned hring => ?_, fun cycle e => ?_⟩
  · intro t k
    have hk : k = _ := EventUnit.writeCount_eq hindex hring
    have hlength : 0 < e.holding.length := List.length_pos_iff.2 hholding
    have haddress : t.address.toNat = e.base.toNat + 32 * e.writeIndex := EventUnit.address_toNat hindex hring
    have hbytes : t.length = 32 * k := rfl
    rw [haddress, hbytes]
    have hsize : e.free = e.size - e.posted - e.inFlight := rfl
    have hend : e.writeIndex + k ≤ e.size := by omega
    have hpos : 0 < k := by omega
    refine ⟨hpos, by omega, by omega, by omega, hend, by omega, by omega, rfl, rfl, rfl, rfl, rfl, rfl, ?_, rfl,
      EventUnit.recordWrite_eq hend, ?_⟩
    · refine (flatMap_encodeEvent_length _ _).trans ?_
      rw [List.length_take_of_le (by omega)]
    · show e.posted + (e.inFlight + k) ≤ e.size
      omega
  · refine ⟨padTo_length _ _, ?_, ?_, ?_, fun j hj hlt => ?_⟩
    · rw [encodeEvent_getD _ _ _ (by omega), if_pos rfl]
    · rw [encodeEvent_getD _ _ _ (by omega), if_pos rfl]
      exact eventKindCode_pos e
    · rw [encodeEvent_getD _ _ _ (by omega), if_neg (by omega), if_pos rfl]
    · rw [encodeEvent_getD _ _ _ hlt, if_neg (by omega), if_neg (by omega)]

end

section
/-! Data reads and data writes: their length, and what their grant records (sections 3.2 and 3.4). -/

namespace Sys2Proof.Machine

/-! ### The length of a transfer -/

theorem bytesToBoundary_eq (a : Addr) : bytesToBoundary a = 4096 - a.toNat % 4096 := rfl

/-- A transfer ends at a frame's end, or at the 4 KiB boundary when its limits leave it no whole frame (R52, R61). -/
theorem transferLength_limits {size frames offset room : Nat} (a : Addr) (hsize : 0 < size) (hsmall : size ≤ 256)
    (hoffset : offset < frames * size) (hroom : 0 < room) (hend : (offset + room) % size = 0) :
    let len := transferLength size frames a offset room
    1 ≤ len ∧ len ≤ 256 ∧ len ≤ room ∧ offset + len ≤ frames * size ∧ a.toNat % 4096 + len ≤ 4096
      ∧ ((offset + len) % size = 0 ∨ a.toNat % 4096 + len = 4096) := by
  intro len
  have hblock := Nat.mod_lt a.toNat (show 0 < 4096 by omega)
  have hle : len ≤ _ := transferLength_le size frames a offset room
  rw [bytesToBoundary_eq] at hle
  have hlen : len = transferLength size frames a offset room := rfl
  unfold transferLength at hlen
  rw [bytesToBoundary_eq, show Config.transferBytes = 256 from rfl] at hlen
  dsimp only at hlen
  generalize hreach : min (min 256 (frames * size - offset)) (min (4096 - a.toNat % 4096) room) = reach at hle hlen
  split at hlen
  · rename_i hwhole
    refine ⟨by omega, by omega, by omega, by omega, by omega, .inl ?_⟩
    rw [hlen, Nat.add_sub_cancel' (Nat.le_of_lt hwhole), Nat.mul_mod_left]
  · rename_i hwhole
    -- no frame ends between the offset and the reach, so only the boundary can have cut it
    have hnone (m : Nat) (hm : offset < m * size) : offset + reach < m * size := by
      by_contra hlt
      exact hwhole (hm.trans_le (Nat.mul_le_mul_right size ((Nat.le_div_iff_mul_le hsize).2 (Nat.le_of_not_lt hlt))))
    have hframe := hnone (offset / size + 1) (Nat.lt_div_mul_add hsize |>.trans_eq (Nat.succ_mul _ _).symm)
    have hlast := hnone frames hoffset
    have hdiv := Nat.div_mul_le_self offset size
    have hstop := hnone ((offset + room) / size)
    rw [Nat.div_mul_cancel (Nat.dvd_of_mod_eq_zero hend)] at hstop
    rw [Nat.succ_mul] at hframe
    refine ⟨by omega, by omega, by omega, by omega, by omega, .inr ?_⟩
    omega

theorem Stream.frameSize_le {c : Stream} (h : c.shapeLegal = true) : c.frameSize ≤ 32 := by
  simp only [Stream.shapeLegal, Bool.and_eq_true, decide_eq_true_eq, Bool.or_eq_true, beq_iff_eq] at h
  obtain ⟨⟨_, h8⟩, hw⟩ := h
  unfold Stream.frameSize
  rcases hw with hw | hw <;> rw [hw] <;> omega

/-- A valid DATA record lies within the address space (R28). -/
theorem Stream.record_fits {c : Stream} {r : StagedRecord} (h : c.recordConsistent r = true) (hvalid : r.invalid = none)
    (hdata : r.record.isData = true) :
    r.record.address.toNat + r.record.frameCount.toNat * c.frameSize ≤ 2 ^ 64 := by
  simp only [Stream.recordConsistent, Bool.and_eq_true, beq_iff_eq] at h
  have hnone : validate c r.record = none := by rw [← h.1, hvalid]
  unfold validate at hnone
  simp only [hdata, Bool.true_and] at hnone
  by_contra hlt
  have hwrap : fitsAddressSpace r.record.address (r.record.frameCount.toNat * c.frameSize) = false := by
    rw [fitsAddressSpace_eq_false_iff]
    omega
  rw [hwrap] at hnone
  split_ifs at hnone with _ _ _ _ _ hfits
  exact hfits rfl

theorem address_toNat {base : Addr} {offset size : Nat} (hfits : base.toNat + size ≤ 2 ^ 64) (h : offset < size) :
    (base + BitVec.ofNat 64 offset).toNat = base.toNat + offset := by
  rw [BitVec.toNat_add, BitVec.toNat_ofNat, Nat.mod_eq_of_lt (a := offset) (by omega), Nat.mod_eq_of_lt (by omega)]

/-- An open record has a frame left in its pass (R36, R37). -/
theorem Stream.open_progress {c : Stream} {r : StagedRecord} (h : c.recordConsistent r = true) (hopen : r.isOpen = true) :
    r.invalid = none ∧ r.progress < r.record.frameCount.toNat := by
  simp only [StagedRecord.isOpen, Bool.and_eq_true, Option.isNone_iff_eq_none, Bool.not_eq_true'] at hopen
  obtain ⟨hvalid, hexhausted⟩ := hopen
  simp only [Stream.recordConsistent, hvalid, hexhausted, Bool.and_eq_true, Bool.or_eq_true, decide_eq_true_eq] at h
  obtain ⟨_, h | ⟨_, h | h⟩⟩ := h
  · cases h
  · exact ⟨hvalid, h⟩
  · cases h

/-! ### The frames that a read reserves -/

theorem filter_range_interval {n a b : Nat} (h : b ≤ n) (p : Nat → Bool) (hp : ∀ k, p k = true ↔ a ≤ k ∧ k < b) :
    (List.range n).filter p = (List.range (b - a)).map (fun i => a + i) := by
  have hleft : ((List.range n).filter p).Pairwise (· < ·) := List.Pairwise.filter p List.pairwise_lt_range
  have hright : ((List.range (b - a)).map (fun i => a + i)).Pairwise (· < ·) :=
    List.pairwise_lt_range.map _ fun _ _ h => Nat.add_lt_add_left h a
  refine hleft.eq_of_mem_iff hright fun k => ?_
  simp only [List.mem_filter, List.mem_range, List.mem_map, hp]
  exact ⟨fun ⟨_, hk⟩ => ⟨k - a, by omega, by omega⟩, fun ⟨i, hi, hk⟩ => by omega⟩

/-- The frames whose first byte lies in the bytes from `offset` to `stop` of a pass, `split` bytes of the first being
those of a frame begun before. -/
theorem carriedFrames_eq {size frames progress split stop : Nat} (hsize : 0 < size) (hsplit : split < size)
    (hstop : stop ≤ frames * size) :
    let first := if split = 0 then progress else progress + 1
    (List.range frames).filter (fun k => progress * size + split ≤ k * size && k * size < stop)
      = (List.range ((stop + size - 1) / size - first)).map (fun i => first + i) := by
  intro first
  refine filter_range_interval ?_ _ fun k => ?_
  · rw [← Nat.lt_add_one_iff, Nat.div_lt_iff_lt_mul hsize, Nat.succ_mul]
    omega
  · rw [Bool.and_eq_true, decide_eq_true_eq, decide_eq_true_eq]
    refine and_congr ?_ ?_
    · simp only [first]
      split
      · rename_i h0
        rw [h0, Nat.add_zero]
        exact Nat.mul_le_mul_right_iff hsize
      · rename_i h0
        constructor
        · intro h
          by_contra hlt
          have := Nat.mul_le_mul_right size (show k ≤ progress by omega)
          omega
        · intro h
          have := Nat.mul_le_mul_right size h
          rw [Nat.succ_mul] at this
          omega
    · rw [← Nat.succ_le_iff (m := k), Nat.le_div_iff_mul_le hsize, Nat.succ_mul]
      omega

/-- The limits of a data read (R52). -/
theorem Stream.formRead_limits {c : Stream} (n : StreamNo) {r : StagedRecord} (hshape : c.shapeLegal = true)
    (hsplit : c.fetchSplit < c.frameSize) (hconsistent : c.recordConsistent r = true) (hopen : r.isOpen = true)
    (hdata : r.record.isData = true) (hroom : c.fifo.length < 32 ∨ c.fetchSplit ≠ 0) :
    let t := c.formRead n r
    let offset := r.progress * c.frameSize + c.fetchSplit
    t.address.toNat = r.record.address.toNat + offset ∧ 1 ≤ t.length ∧ t.length ≤ 256
      ∧ t.address.toNat % 4096 + t.length ≤ 4096 ∧ offset + t.length ≤ r.record.frameCount.toNat * c.frameSize
      ∧ ((offset + t.length) % c.frameSize = 0 ∨ t.address.toNat % 4096 + t.length = 4096)
      ∧ (offset + t.length + c.frameSize - 1) / c.frameSize
          ≤ (if c.fetchSplit = 0 then r.progress else r.progress + 1) + (32 - c.fifo.length) := by
  intro t offset
  have hsize := Stream.frameSize_pos hshape
  have hsmall := Stream.frameSize_le hshape
  obtain ⟨hvalid, hprogress⟩ := Stream.open_progress hconsistent hopen
  have hoffset : offset < r.record.frameCount.toNat * c.frameSize := by
    have := Nat.mul_le_mul_right c.frameSize hprogress
    rw [Nat.succ_mul] at this
    omega
  have haddress : t.address.toNat = r.record.address.toNat + offset :=
    address_toNat (Stream.record_fits hconsistent hvalid hdata) hoffset
  have hfree : c.freePlaces = 32 - c.fifo.length := rfl
  let room := (if c.fetchSplit == 0 then 0 else c.frameSize - c.fetchSplit) + c.frameSize * c.freePlaces
  have hreach : offset + room
      = ((if c.fetchSplit = 0 then r.progress else r.progress + 1) + (32 - c.fifo.length)) * c.frameSize := by
    simp only [offset, room, beq_iff_eq, hfree]
    split
    · rename_i h0
      rw [h0]
      ring
    · rw [Nat.add_mul, Nat.succ_mul, Nat.mul_comm (32 - c.fifo.length)]
      omega
  have hpos : 0 < room := by
    simp only [room, beq_iff_eq, hfree]
    split
    · rename_i h0
      exact Nat.add_pos_right _ (Nat.mul_pos hsize (by omega))
    · omega
  have hlimits := transferLength_limits t.address hsize (by omega) hoffset hpos
    (by rw [hreach]; exact Nat.mul_mod_left _ _)
  have hlength : t.length = transferLength c.frameSize r.record.frameCount.toNat t.address offset room := rfl
  rw [← hlength] at hlimits
  obtain ⟨h1, h256, hle, hframes, hblock, hends⟩ := hlimits
  refine ⟨haddress, h1, h256, hblock, hframes, hends, ?_⟩
  rw [← Nat.lt_add_one_iff, Nat.div_lt_iff_lt_mul hsize, Nat.succ_mul]
  omega

/-- What the Stream Unit records at the grant of a data read, where no other record has its ring index (R53). -/
theorem Stream.recordRead_eq {c : Stream} {r : StagedRecord} {length : Nat} (hsize : 0 < c.frameSize)
    (hunique : ∀ x ∈ c.staging, x.ringIndex = r.ringIndex → x = r) :
    let stop := r.progress * c.frameSize + c.fetchSplit + length
    let first := if c.fetchSplit = 0 then r.progress else r.progress + 1
    let fetched := stop / c.frameSize
    let wraps := fetched = r.record.frameCount.toNat ∧ r.pass + 1 < r.record.passes
    c.recordRead r length = { c with
      fifo := c.fifo ++ ((List.range ((stop + c.frameSize - 1) / c.frameSize - first)).map (fun i => first + i)).map
        (fun k => (⟨r.ringIndex, r.pass, k, false, List.replicate c.frameSize none, 0, 0, 0, false⟩ : Place))
      fetchSplit := stop % c.frameSize
      staging := c.staging.map (fun x =>
        if x.ringIndex = r.ringIndex then
          { r with
            outstanding := r.outstanding + 1
            pass := if wraps then r.pass + 1 else r.pass
            progress := if wraps then 0 else fetched }
        else x) } := by
  intro stop first fetched wraps
  have hfetched : r.progress + (fetched - r.progress) = fetched := by
    have : r.progress ≤ fetched := (Nat.le_div_iff_mul_le hsize).2 (by omega)
    omega
  have hstaging : c.staging.map (fun x => if x.ringIndex = r.ringIndex then
      { x.advance (fetched - x.progress) with outstanding := x.outstanding + 1 } else x)
      = c.staging.map (fun x => if x.ringIndex = r.ringIndex then
          { r with
            outstanding := r.outstanding + 1
            pass := if wraps then r.pass + 1 else r.pass
            progress := if wraps then 0 else fetched }
        else x) := by
    refine List.map_congr_left fun x hx => ?_
    by_cases h : x.ringIndex = r.ringIndex
    · obtain rfl := hunique x hx h
      rw [if_pos rfl, if_pos rfl, StagedRecord.advance, hfetched]
      by_cases hwraps : wraps
      · rw [if_pos (by simpa [wraps] using hwraps), if_pos hwraps, if_pos hwraps]
      · rw [if_neg (by simpa [wraps] using hwraps), if_neg hwraps, if_neg hwraps]
    · rw [if_neg h, if_neg h]
  rw [← hstaging, List.map_map]
  unfold Stream.recordRead Stream.modifyRecord
  simp only [beq_iff_eq]
  rfl

/-! ### The write candidate -/

theorem takeWhile_split {α : Type} (q : α → Bool) (l : List α) :
    l.take (l.takeWhile q).length = l.takeWhile q ∧ ∀ x ∈ l[(l.takeWhile q).length]?, q x = false := by
  induction l with
  | nil => exact ⟨rfl, nofun⟩
  | cons y l ih =>
    rw [List.takeWhile_cons]
    split
    · exact ⟨by rw [List.length_cons, List.take_succ_cons, ih.1], by simpa using ih.2⟩
    · rename_i hy
      refine ⟨rfl, fun x hx => ?_⟩
      obtain rfl : y = x := by simpa using hx
      simpa using hy

/-- The candidate is the run of places of one record at the head of those with bytes to write (R61). -/
theorem Stream.candidate_eq_cons {c : Stream} {p : Place} {rest : List Place} (h : c.candidate = p :: rest) :
    let unwritten := c.fifo.filter (fun q => q.issued < c.frameSize && !q.givenUp)
    (unwritten.take (rest.length + 1) = p :: rest ∧ (∀ q ∈ rest, q.ring = p.ring)
        ∧ ∀ q ∈ unwritten[rest.length + 1]?, q.ring ≠ p.ring)
      ∧ p ∈ c.fifo ∧ p.issued < c.frameSize := by
  intro unwritten
  unfold Stream.candidate at h
  have hunwritten : c.fifo.filter (Place.isUnwritten c.frameSize) = unwritten := rfl
  rw [hunwritten] at h
  clear_value unwritten
  cases unwritten with
  | nil => cases h
  | cons head tail =>
    dsimp only at h
    have hhead : head = p := by
      rw [List.takeWhile_cons, if_pos (beq_self_eq_true _)] at h
      exact (List.cons.inj h).1
    subst hhead
    obtain ⟨htake, hbeyond⟩ := takeWhile_split (fun q : Place => q.ring == head.ring) (head :: tail)
    rw [h] at htake hbeyond
    obtain ⟨hfifo, hopen⟩ := List.mem_filter.1 (hunwritten ▸ List.mem_cons_self : head ∈ c.fifo.filter _)
    simp only [Place.isUnwritten, Bool.and_eq_true, decide_eq_true_eq] at hopen
    refine ⟨⟨htake, fun q hq => ?_, fun q hq => by simpa using hbeyond q hq⟩, hfifo, hopen.1⟩
    have hq : q ∈ List.takeWhile (fun q : Place => q.ring == head.ring) (head :: tail) := h ▸ List.mem_cons_of_mem _ hq
    exact beq_iff_eq.1 (List.mem_takeWhile_imp (p := fun q : Place => q.ring == head.ring) hq)

/-- The data write that is formed from a candidate (R61). -/
theorem Stream.formWrite_eq {c : Stream} (n : StreamNo) {p : Place} {rest : List Place} {r : StagedRecord}
    (hcandidate : c.candidate = p :: rest) (hrecord : c.recordAt p.ring = some r) :
    let offset := p.frame * c.frameSize + p.issued
    let address := r.record.address + BitVec.ofNat 64 offset
    let length := transferLength c.frameSize r.record.frameCount.toNat address offset
      ((rest.length + 1) * c.frameSize - p.issued)
    c.formWrite n = some ⟨.streamData n, .frames p.ring 0 offset, true, address, length,
      (candidateBytes p rest).take length, false⟩ := by
  simp only [Stream.formWrite, hcandidate, hrecord]

/-- The four ends of a candidate, in numbers (R61). -/
theorem Stream.candidateComplete_iff {c : Stream} {p : Place} {rest : List Place} {r : StagedRecord}
    (hcandidate : c.candidate = p :: rest) (hrecord : c.recordAt p.ring = some r) :
    c.candidateComplete = true ↔
      256 ≤ (rest.length + 1) * c.frameSize - p.issued
        ∨ bytesToBoundary (r.record.address + BitVec.ofNat 64 (p.frame * c.frameSize + p.issued))
            ≤ (rest.length + 1) * c.frameSize - p.issued
        ∨ p.frame + rest.length + 1 = r.record.frameCount.toNat ∨ 8 ≤ rest.length + 1 := by
  simp only [Stream.candidateComplete, hcandidate, hrecord, Bool.or_eq_true, decide_eq_true_eq, beq_iff_eq, or_assoc]
  rfl

/-- The bytes of a candidate behind those that were issued before. -/
theorem candidateBytes_eq {p : Place} {rest : List Place} (h : p.issued ≤ p.bytes.length) :
    candidateBytes p rest = ((p :: rest).flatMap (fun q => q.bytes.map (fun b => b.getD 0))).drop p.issued := by
  rw [List.flatMap_cons, List.drop_append_of_le_length (by rwa [List.length_map])]
  rfl

theorem Stream.recordWrite_eq (c : Stream) (ring offset length : Nat) :
    c.recordWrite ring offset length = { c with
      fifo := c.fifo.map (fun q =>
        let k := min ((q.frame + 1) * c.frameSize) (offset + length) - max (q.frame * c.frameSize) offset
        if q.ring = ring ∧ 0 < k then { q with issued := q.issued + k, writes := q.writes + 1 } else q)
      staging := c.staging.map (fun x => if x.ringIndex = ring then { x with outstanding := x.outstanding + 1 } else x) } := by
  unfold Stream.recordWrite Stream.modifyRecord overlap
  simp only [beq_iff_eq, Bool.and_eq_true, decide_eq_true_eq]

end Sys2Proof.Machine

open Sys2Proof Sys2Proof.Machine

/-- Settles O16: the limits are those of one length, whose room ends with a frame. -/
theorem dataReadWithinLimits : Obligations.DataReadWithinLimits := by
  constructor
  · intro c n r hshape hsplit hconsistent hopen hdata hfifo hroom t size frames offset carried fetched wraps
    obtain ⟨haddress, h1, h256, hblock, hframes, hends, hplaces⟩ :=
      Stream.formRead_limits n hshape hsplit hconsistent hopen hdata hroom
    have hcarried : carried = _ := carriedFrames_eq (Stream.frameSize_pos hshape) hsplit hframes
    refine ⟨rfl, rfl, rfl, haddress, h1, h256, hblock, hframes, hends, ?_, fun hunique => ?_⟩
    · have hle (stop first : Nat) (h : stop ≤ first + (32 - c.fifo.length)) : c.fifo.length + (stop - first) ≤ 32 := by
        omega
      rw [hcarried, List.length_map, List.length_range]
      exact hle _ _ hplaces
    · rw [hcarried]
      exact Stream.recordRead_eq (Stream.frameSize_pos hshape) hunique
  · intro c n p rest r hshape hcandidate hrecord hconsistent hvalid hdata hbytes hframes size unwritten offset bytes address
    obtain ⟨hsplit, hfifo, hissued⟩ := Stream.candidate_eq_cons hcandidate
    have hsize := Stream.frameSize_pos hshape
    have hsmall := Stream.frameSize_le hshape
    have hissued : p.issued < size := hissued
    have hreach : offset + bytes = (p.frame + rest.length + 1) * size := by
      have : p.issued ≤ (rest.length + 1) * size := by
        rw [Nat.succ_mul]
        omega
      simp only [offset, bytes]
      rw [Nat.add_assoc, Nat.add_sub_cancel' this, ← Nat.add_mul, Nat.add_assoc]
    have hpass : (p.frame + rest.length + 1) * size ≤ r.record.frameCount.toNat * size :=
      Nat.mul_le_mul_right size hframes
    have hpos : 0 < bytes := by
      simp only [bytes]
      rw [Nat.succ_mul]
      omega
    have hfits := Stream.record_fits hconsistent hvalid hdata
    have haddress : (r.record.address + BitVec.ofNat 64 offset).toNat = address :=
      address_toNat hfits (show offset < r.record.frameCount.toNat * size by omega)
    have hlimits := transferLength_limits (r.record.address + BitVec.ofNat 64 offset) hsize (by omega)
      (show offset < r.record.frameCount.toNat * size by omega) hpos
      (by rw [hreach]; exact Nat.mul_mod_left _ _)
    rw [haddress] at hlimits
    obtain ⟨h1, h256, hle, hframes, hblock, hends⟩ := hlimits
    refine ⟨hsplit, ?_, ?_⟩
    · rw [Stream.candidateComplete_iff hcandidate hrecord, bytesToBoundary_eq, haddress]
      have hboundary : 4096 - address % 4096 ≤ bytes ↔ 4096 ≤ address % 4096 + bytes := by omega
      rw [hboundary]
    · refine ⟨_, Stream.formWrite_eq n hcandidate hrecord, rfl, rfl, rfl, rfl, haddress, h1, h256, hle, hblock, hends, ?_,
        Stream.recordWrite_eq c p.ring offset _⟩
      rw [candidateBytes_eq (by rw [hbytes p hfifo]; exact Nat.le_of_lt hissued)]

end

section
/-! OPEN_STREAM and QUERY (sections 6.4 and 6.8). -/

namespace Sys2Proof.Machine

theorem streamOf_eq (b : BitVec 8) : streamOf b = if 7 < b.toNat then none else some (Fin.ofNat 8 b.toNat) := by
  unfold streamOf
  split_ifs with h
  · omega
  · exact congrArg some (Fin.ext (Nat.mod_eq_of_lt h).symm)
  · rfl
  · omega

/-! ### The codes of OPEN_STREAM (R8, R198) -/

theorem directionOf_eq (b : BitVec 8) :
    directionOf b = if 1 < b.toNat then none else some (if b.toNat = 0 then .output else .capture) := by
  unfold directionOf
  rcases b.toNat with _ | _ | k <;> simp

theorem levelOf_eq (b : BitVec 8) :
    levelOf b = if 1 < b.toNat then none else some (if b.toNat = 0 then .low else .high) := by
  unfold levelOf
  rcases b.toNat with _ | _ | k <;> simp

theorem changeEdgeOf_eq (b : BitVec 8) :
    changeEdgeOf b = if 1 < b.toNat then none else some (if b.toNat = 0 then .rising else .falling) := by
  unfold changeEdgeOf
  rcases b.toNat with _ | _ | k <;> simp

theorem syncFormOf_eq (b : BitVec 8) :
    syncFormOf b = if 1 < b.toNat then none else some (if b.toNat = 0 then .pulse else .level) := by
  unfold syncFormOf
  rcases b.toNat with _ | _ | k <;> simp

theorem policyOf_eq (b : BitVec 8) :
    policyOf b = if 2 < b.toNat then none
      else some (if b.toNat = 0 then .silence else if b.toNat = 1 then .repeatFrame else .halt) := by
  unfold policyOf
  rcases b.toNat with _ | _ | _ | k <;> simp

/-- The context that parameters in range initialise (R8). -/
def openedContext (p : OpenParams) : Stream :=
  { closedStream with
    state := .idle
    direction := if p.direction.toNat = 0 then .output else .capture
    generator := Fin.ofNat 4 p.generator.toNat
    slots := p.slots.toNat
    width := p.width.toNat
    idleLevel := if p.idleLevel.toNat = 0 then .low else .high
    changeEdge := if p.changeEdge.toNat = 0 then .rising else .falling
    syncForm := if p.syncForm.toNat = 0 then .pulse else .level
    policy := if p.policy.toNat = 0 then .silence else if p.policy.toNat = 1 then .repeatFrame else .halt
    ringBase := p.base
    ringSize := p.size.toNat
    producer := p.start.toNat
    consumer := p.start.toNat
    lastFrame := List.replicate (p.slots.toNat * p.width.toNat / 8) 0 }

theorem repeatOnCapture_iff (p : OpenParams) (h : p.direction.toNat ≤ 1) :
    ((if p.policy.toNat = 0 then StarvePolicy.silence else if p.policy.toNat = 1 then .repeatFrame else .halt) = .repeatFrame
      ∧ (if p.direction.toNat = 0 then Direction.output else .capture) = .capture)
    ↔ p.policy.toNat = 1 ∧ p.direction.toNat = 1 := by
  split_ifs <;> simp <;> omega

/-- The codes of the parameters name something each (R198). -/
def openCodesInRange (p : OpenParams) : Prop :=
  p.direction.toNat ≤ 1 ∧ p.generator.toNat ≤ 3 ∧ p.idleLevel.toNat ≤ 1 ∧ p.changeEdge.toNat ≤ 1 ∧ p.syncForm.toNat ≤ 1
    ∧ p.policy.toNat ≤ 2

theorem openedStream_of_code {p : OpenParams} (h : ¬openCodesInRange p) : openedStream p = none := by
  unfold openedStream
  rw [directionOf_eq, generatorOf_eq, levelOf_eq, changeEdgeOf_eq, syncFormOf_eq, policyOf_eq]
  split
  · rename_i hd hg hl he hs hp
    simp only [Option.ite_none_left_eq_some, Nat.not_lt] at hd hg hl he hs hp
    exact absurd ⟨hd.1, hg.1, hl.1, he.1, hs.1, hp.1⟩ h
  · rfl

theorem openedStream_eq {p : OpenParams} (h : openCodesInRange p) :
    openedStream p =
      if 1 ≤ p.slots.toNat ∧ p.slots.toNat ≤ 8 ∧ (p.width.toNat = 16 ∨ p.width.toNat = 32)
        ∧ ¬(p.policy.toNat = 1 ∧ p.direction.toNat = 1) ∧ p.base.toNat % 32 = 0
        ∧ isPowerOfTwo p.size.toNat ∧ 16 ≤ p.size.toNat ∧ p.size.toNat ≤ 4096 ∧ p.start.toNat < p.size.toNat
        ∧ fitsAddressSpace p.base (32 * p.size.toNat)
      then some (openedContext p) else none := by
  obtain ⟨hdirection, hgenerator, hidle, hedge, hsync, hpolicy⟩ := h
  unfold openedStream
  rw [directionOf_eq, generatorOf_eq, levelOf_eq, changeEdgeOf_eq, syncFormOf_eq, policyOf_eq,
    if_neg (Nat.not_lt.2 hdirection), if_neg (Nat.not_lt.2 hgenerator), if_neg (Nat.not_lt.2 hidle),
    if_neg (Nat.not_lt.2 hedge), if_neg (Nat.not_lt.2 hsync), if_neg (Nat.not_lt.2 hpolicy)]
  dsimp only
  refine if_congr ?_ rfl rfl
  rw [repeatOnCapture_iff p hdirection]

theorem openParamsInRange_iff (p : OpenParams) :
    OpenParamsInRange p ↔ openCodesInRange p ∧ 1 ≤ p.slots.toNat ∧ p.slots.toNat ≤ 8
      ∧ (p.width.toNat = 16 ∨ p.width.toNat = 32) ∧ ¬(p.policy.toNat = 1 ∧ p.direction.toNat = 1)
      ∧ p.base.toNat % 32 = 0 ∧ isPowerOfTwo p.size.toNat ∧ 16 ≤ p.size.toNat ∧ p.size.toNat ≤ 4096
      ∧ p.start.toNat < p.size.toNat ∧ fitsAddressSpace p.base (32 * p.size.toNat) := by
  have hsize := isPowerOfTwo_between_iff p.size.toNat 4 12
  rw [show 2 ^ 4 = 16 from rfl, show 2 ^ 12 = 4096 from rfl] at hsize
  rw [OpenParamsInRange, openCodesInRange, ← hsize, fitsAddressSpace_iff]
  tauto

theorem openedStream_of_inRange {p : OpenParams} (h : OpenParamsInRange p) :
    openedStream p = some (openedContext p) := by
  obtain ⟨hcodes, hrest⟩ := (openParamsInRange_iff p).1 h
  rw [openedStream_eq hcodes, if_pos hrest]

theorem openedStream_of_outOfRange {p : OpenParams} (h : ¬OpenParamsInRange p) : openedStream p = none := by
  by_cases hcodes : openCodesInRange p
  · rw [openedStream_eq hcodes, if_neg fun hrest => h ((openParamsInRange_iff p).2 ⟨hcodes, hrest⟩)]
  · exact openedStream_of_code hcodes

theorem exec_openStream (e : TransferId) (seq : BitVec 16) (p : OpenParams) (s : State) :
    exec (.openStream e seq p) s = .next (s.takeCommand e (.openStream e seq p) seq (fun s => s.openStream p)) := rfl

theorem State.openStream_of_number {s : State} {p : OpenParams} (h : 7 < p.stream.toNat) :
    s.openStream p = s.refuse .badParam := by
  rw [State.openStream, streamOf_eq, if_pos h]

theorem State.openStream_of_open {s : State} {p : OpenParams} (h : p.stream.toNat ≤ 7)
    (hs : (s.stream (Fin.ofNat 8 p.stream.toNat)).state ≠ .closed) : s.openStream p = s.refuse .badState := by
  rw [State.openStream, streamOf_eq, if_neg (Nat.not_lt.2 h)]
  exact if_pos (bne_iff_ne.2 hs)

theorem State.openStream_of_closed {s : State} {p : OpenParams} (h : p.stream.toNat ≤ 7)
    (hs : (s.stream (Fin.ofNat 8 p.stream.toNat)).state = .closed) :
    s.openStream p = (openedStream p).elim (s.refuse .badParam)
      (fun c => (s.putStream (Fin.ofNat 8 p.stream.toNat) c).answerOk []) := by
  rw [State.openStream, streamOf_eq, if_neg (Nat.not_lt.2 h)]
  dsimp only
  rw [if_neg (by rw [hs]; decide)]
  cases openedStream p <;> rfl

/-! ### QUERY -/

theorem exec_query (e : TransferId) (seq : BitVec 16) (kind number page : BitVec 8) (s : State) :
    exec (.query e seq kind number page) s
      = .next (s.takeCommand e (.query e seq kind number page) seq (fun s =>
        (s.queryPage kind number page).elim (s.refuse .badParam) s.answerOk)) := by
  refine congrArg (fun execute => Host.Outcome.next (s.takeCommand e (.query e seq kind number page) seq execute)) ?_
  funext s
  cases s.queryPage kind number page <;> rfl

/-- A page that is read answers the command; without one it is refused (R140). -/
theorem State.query_answered {s : State} {e : TransferId} {index : Nat} (seq : BitVec 16) {kind number page : BitVec 8}
    (h : s.commandRead e index = true) :
    (∀ bytes, s.queryPage kind number page = some bytes → ∃ t, exec (.query e seq kind number page) s = .next t
      ∧ (s.answered e (.query e seq kind number page) seq index .ok bytes .nobody).grantsTo t)
    ∧ (s.queryPage kind number page = none → ∃ t, exec (.query e seq kind number page) s = .next t
      ∧ (s.answered e (.query e seq kind number page) seq index .badParam [] .nobody).grantsTo t) := by
  have htaken (record : Instr) : (s.taken e record seq index).queryPage kind number page = s.queryPage kind number page := rfl
  rw [exec_query]
  refine ⟨fun bytes hpage => ⟨_, rfl, ?_⟩, fun hpage => ⟨_, rfl, ?_⟩⟩ <;>
    · refine State.takeCommand_answered s e _ seq index _ _ _ h ?_
      rw [htaken, hpage]
      rfl

theorem State.queryPage_stream {s : State} {kind number : BitVec 8} (page : BitVec 8) (hkind : kind.toNat = 0) :
    s.queryPage kind number page
      = if 7 < number.toNat then none else s.streamPage (Fin.ofNat 8 number.toNat) page := by
  unfold State.queryPage
  rw [hkind, streamOf_eq]
  by_cases h : 7 < number.toNat
  · rw [if_pos h, if_pos h]
    rfl
  · rw [if_neg h, if_neg h]
    rfl

theorem State.queryPage_generator {s : State} {kind number : BitVec 8} (page : BitVec 8) (hkind : kind.toNat = 1) :
    s.queryPage kind number page
      = if 3 < number.toNat then none else s.generatorPage (Fin.ofNat 4 number.toNat) page := by
  unfold State.queryPage
  rw [hkind, generatorOf_eq]
  by_cases h : 3 < number.toNat
  · rw [if_pos h, if_pos h]
    rfl
  · rw [if_neg h, if_neg h]
    rfl

theorem State.queryPage_unknown {s : State} {kind number : BitVec 8} (page : BitVec 8) (hkind : 1 < kind.toNat) :
    s.queryPage kind number page = none := by
  obtain ⟨k, hk⟩ : ∃ k, kind.toNat = k + 2 := ⟨kind.toNat - 2, by omega⟩
  unfold State.queryPage
  rw [hk]
  rfl

end Sys2Proof.Machine

open Sys2Proof Sys2Proof.Machine

/-- Settles O22, check by check; taking the command leaves the streams. -/
theorem openStreamInitialises : Obligations.OpenStreamInitialises := by
  intro s e seq index p h n opened
  rw [exec_openStream]
  refine ⟨fun hnumber => ⟨_, rfl, ?_⟩, fun hnumber hopen => ⟨_, rfl, ?_⟩, fun hnumber hclosed hrange => ⟨_, rfl, ?_⟩,
    fun hnumber hclosed _ hrange => ⟨_, rfl, ?_⟩⟩
  · exact State.takeCommand_answered s e _ seq index _ _ _ h (State.openStream_of_number hnumber)
  · exact State.takeCommand_answered s e _ seq index _ _ _ h (State.openStream_of_open hnumber hopen)
  · refine State.takeCommand_answered s e _ seq index _ _ _ h
      ((State.openStream_of_closed (s := s.taken e _ seq index) hnumber hclosed).trans ?_)
    rw [openedStream_of_outOfRange hrange]
    rfl
  · refine (State.takeCommand_checked (s.putStream n opened) none h ?_).2 rfl
    refine (State.openStream_of_closed (s := s.taken e _ seq index) hnumber hclosed).trans ?_
    rw [openedStream_of_inRange hrange]
    rfl

/-- Settles O30: the page is read in the state in which the command is taken, which leaves what it shows. -/
theorem queryReadsPage : Obligations.QueryReadsPage := by
  intro s e seq index kind number page h i n g c
  obtain ⟨answered, refused⟩ := State.query_answered seq (kind := kind) (number := number) (page := page) h
  refine ⟨fun hkind hnumber hpage => answered _ ?_, fun hkind hnumber hpage => answered _ ?_, fun hrange => refused ?_⟩
  · rw [State.queryPage_stream page hkind, if_neg (Nat.not_lt.2 hnumber)]
    unfold State.streamPage
    have hclosed (bytes : List Byte) : (if (s.stream n).state == .closed then [] else bytes)
        = if c.state = .closed then [] else bytes := if_congr beq_iff_eq rfl rfl
    obtain hp | hp | hp | hp : page.toNat = 0 ∨ page.toNat = 1 ∨ page.toNat = 2 ∨ page.toNat = 3 := by omega
    all_goals
      rw [hp]
      exact congrArg some (hclosed _)
  · rw [State.queryPage_generator page hkind, if_neg (Nat.not_lt.2 hnumber)]
    unfold State.generatorPage
    obtain hp | hp : page.toNat = 0 ∨ page.toNat = 1 := by omega
    · have hbound : (s.boundStreams g).filter (fun m => (s.stream m).state != .closed)
          = Config.streams.filter (fun m => (s.stream m).generator == g && (s.stream m).state != .closed) := by
        rw [State.boundStreams, List.filter_filter]
        exact List.filter_congr fun m _ => Bool.and_comm _ _
      have hlost : s.lostWaiting g = decide (∃ r ∈ s.timebase.lostReports, r.generator = g) := by
        rw [Bool.eq_iff_iff, State.lostWaiting_iff, decide_eq_true_eq]
      rw [hp, if_pos rfl, ← hbound, ← hlost]
      rfl
    · rw [hp]
      rfl
  · rcases hrange with hkind | ⟨hkind, hrange⟩ | ⟨hkind, hrange⟩
    · exact State.queryPage_unknown page hkind
    · rw [State.queryPage_stream page hkind, ite_eq_left_iff]
      intro hnumber
      obtain ⟨k, hk⟩ : ∃ k, page.toNat = k + 4 := ⟨page.toNat - 4, by omega⟩
      unfold State.streamPage
      rw [hk]
      rfl
    · rw [State.queryPage_generator page hkind, ite_eq_left_iff]
      intro hnumber
      obtain ⟨k, hk⟩ : ∃ k, page.toNat = k + 2 := ⟨page.toNat - 2, by omega⟩
      unfold State.generatorPage
      rw [hk]
      rfl

end

section
/-! START and STOP: their checks in order, and the entry they create (sections 5.2, 6.5 and 6.6). -/

namespace Sys2Proof.Machine

/-! ### The set of a command -/

theorem mem_streamsOf (set : StreamSet) (n : StreamNo) : n ∈ streamsOf set ↔ set.getLsbD n.val = true := by
  simp [streamsOf, mem_configStreams]

theorem streamsOf_nodup (set : StreamSet) : (streamsOf set).Nodup :=
  List.Nodup.filter _ (by decide)

theorem streamsOf_eq_nil_iff (set : StreamSet) : streamsOf set = [] ↔ set = 0 := by
  rw [List.eq_nil_iff_forall_not_mem]
  constructor
  · intro h
    refine BitVec.eq_of_getLsbD_eq fun i hi => ?_
    have := h ⟨i, hi⟩
    rw [mem_streamsOf, Bool.not_eq_true] at this
    rw [this]
    simp
  · rintro rfl n hn
    simp [mem_streamsOf] at hn

/-- A check of every named stream fails when one of them fails it. -/
theorem all_streamsOf_eq_false_iff (set : StreamSet) (passes : StreamNo → Bool) :
    (streamsOf set).all passes = false ↔ ∃ n : StreamNo, set.getLsbD n.val = true ∧ passes n = false := by
  rw [List.all_eq_false]
  simp only [mem_streamsOf, Bool.not_eq_true]

/-! ### The condition of a record -/

theorem condition_eq_iff (p : ScheduleParams) (code : Nat) (h : code < 256) :
    p.condition = BitVec.ofNat 8 code ↔ p.condition.toNat = code := by
  rw [← BitVec.toNat_inj, BitVec.toNat_ofNat, Nat.mod_eq_of_lt h]

theorem condNext_iff (p : ScheduleParams) : p.condition = condNext ↔ p.condition.toNat = 0 := condition_eq_iff p 0 (by omega)
theorem condAt_iff (p : ScheduleParams) : p.condition = condAt ↔ p.condition.toNat = 1 := condition_eq_iff p 1 (by omega)
theorem condTrigger_iff (p : ScheduleParams) : p.condition = condTrigger ↔ p.condition.toNat = 2 :=
  condition_eq_iff p 2 (by omega)
theorem condNow_iff (p : ScheduleParams) : p.condition = condNow ↔ p.condition.toNat = 3 := condition_eq_iff p 3 (by omega)
theorem condDrain_iff (p : ScheduleParams) : p.condition = condDrain ↔ p.condition.toNat = 4 :=
  condition_eq_iff p 4 (by omega)

theorem lineInRange_iff (p : ScheduleParams) : lineInRange p = true ↔ p.condition.toNat ≠ 2 ∨ p.line.toNat ≤ 3 := by
  rw [lineInRange, Bool.or_eq_true, bne_iff_ne, ne_eq, condTrigger_iff, decide_eq_true_eq]
  omega

/-- A condition that creates an entry, and with it its line (R130, R132). -/
theorem entryCondition_eq (p : ScheduleParams) (allowNext : Bool) :
    entryCondition p allowNext =
      if ((allowNext = true ∧ p.condition.toNat = 0) ∨ p.condition.toNat = 1 ∨ p.condition.toNat = 2)
        ∧ lineInRange p = true
      then some (createdCondition p) else none := by
  unfold entryCondition createdCondition
  simp only [Bool.and_eq_true, beq_iff_eq, condNext_iff, condAt_iff, condTrigger_iff, lineInRange_iff]
  by_cases h0 : p.condition.toNat = 0
  · cases allowNext <;> simp [h0]
  · by_cases h1 : p.condition.toNat = 1
    · simp [h1]
    · by_cases h2 : p.condition.toNat = 2
      · rw [lineOf_eq]
        by_cases hl : p.line.toNat ≤ 3
        · simp [h2, hl, Nat.not_lt.2 hl]
        · simp [h2, hl, Nat.lt_of_not_le hl]
      · simp [h0, h1, h2]

theorem State.lineSelected_created {s : State} {p : ScheduleParams} :
    s.lineSelected (createdCondition p) = s.lineUsable p := by
  unfold State.lineUsable createdCondition
  by_cases h2 : p.condition = condTrigger
  · rw [if_pos h2, h2]
    rfl
  · rw [if_neg h2, bne_iff_ne.2 h2, Bool.true_or]
    split <;> rfl

/-! ### The checks in their order -/

/-- A check that fails decides the status; one that passes leaves it to the next. -/
theorem firstFailure_check {b : Bool} {P : Prop} [Decidable P] (st : Status) (rest : List (Bool × Status))
    (h : b = false ↔ P) : firstFailure ((b, st) :: rest) = if P then some st else firstFailure rest := by
  rw [firstFailure_cons]
  by_cases hP : P
  · rw [if_pos hP, if_neg (by rw [h.2 hP]; decide)]
  · rw [if_neg hP, if_pos (by rw [← Bool.not_eq_false, h]; exact hP)]

theorem State.setGeneratorOf_cons {s : State} {set : StreamSet} {n : StreamNo} {rest : List StreamNo}
    (h : streamsOf set = n :: rest) : s.setGeneratorOf set = (s.stream n).generator := by
  rw [State.setGeneratorOf, h]

theorem bitClockWithin_eq_false_iff (x : Generator) (c : Stream) :
    bitClockWithin x c = false ↔ Config.bitClockLimit * x.divider < x.frequency * c.slots * c.width := by
  rw [bitClockWithin, decide_eq_false_iff_not, Nat.not_le]

theorem State.tableFree_eq_false_iff (s : State) :
    s.tableFree = false ↔ Config.schedulePlaces ≤ s.schedule.entries.length := by
  rw [State.tableFree, decide_eq_false_iff_not, Nat.not_lt]

theorem State.allBound_eq_false_iff (s : State) (set : StreamSet) (g : GenNo) :
    s.allBound set g = false ↔ ∃ n : StreamNo, set.getLsbD n.val = true ∧ (s.stream n).generator ≠ g := by
  rw [State.allBound, all_streamsOf_eq_false_iff]
  simp only [beq_eq_false_iff_ne]

theorem entryCondition_some {p : ScheduleParams} {allowNext : Bool}
    (hcode : (allowNext = true ∧ p.condition.toNat = 0) ∨ p.condition.toNat = 1 ∨ p.condition.toNat = 2)
    (hline : lineInRange p = true) : entryCondition p allowNext = some (createdCondition p) := by
  rw [entryCondition_eq, if_pos ⟨hcode, hline⟩]

theorem entryCondition_none {p : ScheduleParams} {allowNext : Bool}
    (h : ¬((allowNext = true ∧ p.condition.toNat = 0) ∨ p.condition.toNat = 1 ∨ p.condition.toNat = 2)
      ∨ ¬lineInRange p = true) : entryCondition p allowNext = none := by
  rw [entryCondition_eq, if_neg fun k => h.elim (fun h => h k.1) fun h => h k.2]

/-- START refuses with the status of R130, or creates its entry. -/
theorem State.start_eq (s : State) (p : ScheduleParams) :
    s.start p = (s.startRefusal p).elim
      (s.createEntry .start (s.setGeneratorOf p.streams) (createdCondition p) p) s.refuse := by
  unfold State.start State.startRefusal
  dsimp only
  cases hset : streamsOf p.streams with
  | nil =>
    rw [if_pos ((streamsOf_eq_nil_iff _).1 hset)]
    rfl
  | cons n rest =>
    have hne : p.streams ≠ 0 := fun h => by rw [(streamsOf_eq_nil_iff _).2 h] at hset; cases hset
    rw [if_neg hne]
    by_cases hcode : 2 < p.condition.toNat
    · rw [entryCondition_none (.inl (by simp; omega)), if_pos hcode]
      rfl
    by_cases hline : lineInRange p = true
    · rw [entryCondition_some (by simp; omega) hline, if_neg hcode, if_neg (by rw [hline]; decide)]
      dsimp only
      rw [← hset, ← State.setGeneratorOf_cons hset, State.lineSelected_created,
        firstFailure_check _ _ (all_streamsOf_eq_false_iff _ _),
        firstFailure_check _ _ (s.allBound_eq_false_iff _ _),
        firstFailure_check _ _ beq_eq_false_iff_ne,
        firstFailure_check (P := (!s.lineUsable p) = true) _ _ (by simp),
        firstFailure_check _ _ (all_streamsOf_eq_false_iff _ _),
        firstFailure_check _ _ s.tableFree_eq_false_iff]
      simp only [beq_eq_false_iff_ne, bitClockWithin_eq_false_iff]
      split_ifs <;> rfl
    · rw [entryCondition_none (.inr hline), if_neg hcode, if_pos (by simpa using hline)]
      rfl

/-! ### STOP -/

/-- What STOP NOW does once its checks have passed (R133, R134). -/
def State.stopNamed (s : State) (p : ScheduleParams) : State :=
  let named := streamsOf p.streams
  let disarmed := setOf (named.filter (fun n => (s.stream n).state == .armed))
  let stopped := setOf (named.filter (fun n => (s.stream n).state != .armed))
  let order := s.takeOrder.1.filter (fun n => p.streams.getLsbD n.val)
  let s := s.takeOrder.2.awaitCompletion (leBytes 1 stopped.toNat ++ leBytes 1 disarmed.toNat) stopped []
  (order.foldl State.stopStream (order.foldl State.stopRemoval s)).examineCommand

/-- What STOP DRAIN does with its stream once its checks have passed (R14, R136, R137). -/
def State.drainStream (s : State) (n : StreamNo) : State :=
  let c := s.stream n
  ((s.putStream n { c with state := .draining, drainLimit := some c.producer, drainAnswered := false }).settle
    n).produceCmdDone .pending (leBytes 2 c.producer ++ leBytes 2 c.consumer) (.drain n)

/-- What STOP does once its checks have passed, by its condition. -/
def State.stops (s : State) (p : ScheduleParams) : State :=
  if p.condition = condNow then s.stopNamed p
  else if p.condition = condDrain then s.drainStream ((streamsOf p.streams).headD 0)
  else s.createEntry .stop (s.setGeneratorOf p.streams) (createdCondition p) p

theorem Stream.isStoppable_eq_false_iff (c : Stream) :
    c.isStoppable = false ↔ ¬(c.state = .armed ∨ c.isRunning = true ∨ c.state = .faulted) := by
  rw [← Bool.not_eq_true]
  simp [Stream.isStoppable, or_assoc]

theorem Stream.isBusy_iff (c : Stream) :
    (c.state != .draining && c.scheduleEntry.isNone && !c.inTail) = false
      ↔ c.state = .draining ∨ c.scheduleEntry ≠ none ∨ c.inTail = true := by
  simp only [Bool.and_eq_false_iff, bne_eq_false_iff_eq, Bool.not_eq_false', Option.isNone_eq_false_iff,
    Option.isSome_iff_ne_none, or_assoc]

theorem State.stopNow_eq {s : State} {p : ScheduleParams} (hset : p.streams ≠ 0) :
    s.stopNow p =
      if ∃ n : StreamNo, p.streams.getLsbD n.val = true
          ∧ ¬((s.stream n).state = .armed ∨ (s.stream n).isRunning = true ∨ (s.stream n).state = .faulted)
      then s.refuse .badState else s.stopNamed p := by
  have hnamed : (streamsOf p.streams).isEmpty = false := by
    rw [List.isEmpty_eq_false_iff, ne_eq, streamsOf_eq_nil_iff]
    exact hset
  unfold State.stopNow
  dsimp only
  rw [hnamed, if_neg nofun]
  refine if_congr ?_ rfl rfl
  simp only [Bool.not_eq_true', all_streamsOf_eq_false_iff, Stream.isStoppable_eq_false_iff]

theorem State.stopNow_empty {s : State} {p : ScheduleParams} (hset : p.streams = 0) :
    s.stopNow p = s.refuse .badParam := by
  unfold State.stopNow
  rw [(streamsOf_eq_nil_iff _).2 hset]
  rfl

/-- The checks of a STOP of any other condition, on its streams (R132). -/
theorem State.stopDrain_eq {s : State} {p : ScheduleParams} {n : StreamNo} (hset : streamsOf p.streams = [n]) :
    s.stopDrain p =
      if ∃ n : StreamNo, p.streams.getLsbD n.val = true ∧ (!(s.stream n).isRunning) = true then s.refuse .badState
      else if ∃ n : StreamNo, p.streams.getLsbD n.val = true ∧ ((s.stream n).state = .draining
          ∨ (s.stream n).scheduleEntry ≠ none ∨ (s.stream n).inTail = true) then s.refuse .busy
      else s.drainStream n := by
  have hone (P : StreamNo → Prop) : (∃ m : StreamNo, p.streams.getLsbD m.val = true ∧ P m) ↔ P n := by
    simp only [← mem_streamsOf, hset, List.mem_singleton, exists_eq_left]
  unfold State.stopDrain
  rw [hset]
  dsimp only
  rw [firstFailure_check (P := (!(s.stream n).isRunning) = true) _ _ (by simp), firstFailure_check _ _ (s.stream n).isBusy_iff]
  simp only [hone]
  split_ifs <;> rfl

theorem State.stopDrain_length {s : State} {p : ScheduleParams} (h : (streamsOf p.streams).length ≠ 1) :
    s.stopDrain p = s.refuse .badParam := by
  unfold State.stopDrain
  split
  · rename_i n hset
    rw [hset] at h
    exact absurd rfl h
  · rfl

theorem State.stopEntry_eq {s : State} {p : ScheduleParams} (hset : p.streams ≠ 0) :
    s.stopEntry p (createdCondition p) =
      (if ∃ n : StreamNo, p.streams.getLsbD n.val = true ∧ (!(s.stream n).isRunning) = true then some .badState
      else if ∃ n : StreamNo, p.streams.getLsbD n.val = true ∧ ((s.stream n).state = .draining
          ∨ (s.stream n).scheduleEntry ≠ none ∨ (s.stream n).inTail = true) then some .busy
      else if ∃ n : StreamNo, p.streams.getLsbD n.val = true
          ∧ (s.stream n).generator ≠ s.setGeneratorOf p.streams then some .badParam
      else if (s.generator (s.setGeneratorOf p.streams)).state ≠ .running then some .genOff
      else if (!s.lineUsable p) = true then some .badState
      else if Config.schedulePlaces ≤ s.schedule.entries.length then some .noEntry
      else none : Option Status).elim
        (s.createEntry .stop (s.setGeneratorOf p.streams) (createdCondition p) p) s.refuse := by
  unfold State.stopEntry
  cases hs : streamsOf p.streams with
  | nil => exact absurd ((streamsOf_eq_nil_iff _).1 hs) hset
  | cons n rest =>
    dsimp only
    rw [← hs, ← State.setGeneratorOf_cons hs, State.lineSelected_created,
      firstFailure_check _ _ (all_streamsOf_eq_false_iff _ _),
      firstFailure_check _ _ (all_streamsOf_eq_false_iff _ _),
      firstFailure_check _ _ (s.allBound_eq_false_iff _ _),
      firstFailure_check _ _ beq_eq_false_iff_ne,
      firstFailure_check (P := (!s.lineUsable p) = true) _ _ (by simp),
      firstFailure_check _ _ s.tableFree_eq_false_iff]
    simp only [Stream.isBusy_iff, Bool.not_eq_true']
    split_ifs <;> rfl

theorem State.stop_empty {s : State} {p : ScheduleParams} (hset : p.streams = 0) : s.stop p = s.refuse .badParam := by
  have hnone := (streamsOf_eq_nil_iff _).2 hset
  unfold State.stop
  split
  · exact State.stopNow_empty hset
  · split
    · exact State.stopDrain_length (by rw [hnone]; decide)
    · split
      · unfold State.stopEntry
        rw [hnone]
      · rfl

theorem State.stop_now {s : State} {p : ScheduleParams} (hset : p.streams ≠ 0) (hnow : p.condition = condNow) :
    s.stop p = (s.stopRefusal p).elim (s.stops p) s.refuse := by
  have hcode := (condNow_iff p).1 hnow
  have hline : lineInRange p = true := (lineInRange_iff p).2 (.inl (by omega))
  have hdrain : ¬p.condition = condDrain := fun h => by
    have := (condDrain_iff p).1 h
    omega
  unfold State.stopRefusal
  dsimp only
  rw [if_neg hset, if_neg (by omega), if_neg (by rw [hline]; decide), if_neg fun h => hdrain h.1, if_pos hnow,
    State.stop, if_pos (beq_iff_eq.2 hnow), State.stopNow_eq hset, State.stops, if_pos hnow]
  split_ifs <;> rfl

theorem State.stop_drain {s : State} {p : ScheduleParams} (hset : p.streams ≠ 0) (hdrain : p.condition = condDrain) :
    s.stop p = (s.stopRefusal p).elim (s.stops p) s.refuse := by
  have hcode := (condDrain_iff p).1 hdrain
  have hline : lineInRange p = true := (lineInRange_iff p).2 (.inl (by omega))
  have hnow : ¬p.condition = condNow := fun h => by
    have := (condNow_iff p).1 h
    omega
  unfold State.stopRefusal
  dsimp only
  rw [if_neg hset, if_neg (by omega), if_neg (by rw [hline]; decide), State.stop, if_neg (by simpa using hnow),
    if_pos (beq_iff_eq.2 hdrain)]
  by_cases hlength : (streamsOf p.streams).length = 1
  · obtain ⟨n, hn⟩ := List.length_eq_one_iff.1 hlength
    rw [if_neg fun h => h.2 hlength, State.stopDrain_eq hn, if_neg hnow, if_pos hdrain, State.stops, if_neg hnow,
      if_pos hdrain, hn]
    split_ifs <;> rfl
  · rw [if_pos ⟨hdrain, hlength⟩, State.stopDrain_length hlength]
    rfl

theorem State.stop_entry {s : State} {p : ScheduleParams} (hset : p.streams ≠ 0) (hnow : ¬p.condition = condNow)
    (hdrain : ¬p.condition = condDrain) : s.stop p = (s.stopRefusal p).elim (s.stops p) s.refuse := by
  have hnow' := mt (condNow_iff p).2 hnow
  have hdrain' := mt (condDrain_iff p).2 hdrain
  unfold State.stopRefusal
  dsimp only
  rw [if_neg hset, State.stop, if_neg (by simpa using hnow), if_neg (by simpa using hdrain)]
  by_cases hcode : p.condition.toNat = 0 ∨ 4 < p.condition.toNat
  · rw [entryCondition_none (.inl (by simp; omega)), if_pos hcode]
    rfl
  by_cases hline : lineInRange p = true
  · rw [entryCondition_some (by simp; omega) hline, if_neg hcode, if_neg (by rw [hline]; decide),
      if_neg fun h => hdrain h.1, if_neg hnow, if_neg hdrain, State.stops, if_neg hnow, if_neg hdrain]
    exact State.stopEntry_eq hset
  · rw [entryCondition_none (.inr hline), if_neg hcode, if_pos (by simpa using hline)]
    rfl

/-- STOP refuses with the status of R132, or does what its condition says. -/
theorem State.stop_eq (s : State) (p : ScheduleParams) :
    s.stop p = (s.stopRefusal p).elim (s.stops p) s.refuse := by
  by_cases hset : p.streams = 0
  · rw [State.stop_empty hset, State.stopRefusal, if_pos hset]
    rfl
  by_cases hnow : p.condition = condNow
  · exact State.stop_now hset hnow
  by_cases hdrain : p.condition = condDrain
  · exact State.stop_drain hset hdrain
  · exact State.stop_entry hset hnow hdrain

/-! ### The rows -/

theorem exec_start {i : Instr} {e : TransferId} {seq : BitVec 16} {p : ScheduleParams}
    (h : i = .startNext e seq p ∨ i = .startAt e seq p ∨ i = .startTrigger e seq p) (s : State) :
    exec i s = .next (s.takeCommand e i seq (fun s => s.start p)) := by
  rcases h with rfl | rfl | rfl <;> rfl

theorem exec_stop {i : Instr} {e : TransferId} {seq : BitVec 16} {p : ScheduleParams}
    (h : i = .stopNow e seq p ∨ i = .stopAt e seq p ∨ i = .stopTrigger e seq p ∨ i = .stopDrain e seq p) (s : State) :
    exec i s = .next (s.takeCommand e i seq (fun s => s.stop p)) := by
  rcases h with rfl | rfl | rfl | rfl <;> rfl

end Sys2Proof.Machine

open Sys2Proof Sys2Proof.Machine

/-- Settles O24: the checks of START and STOP are those of their tables, in the state in which the command is taken. -/
theorem startStopRefusedInOrder : Obligations.StartStopRefusedInOrder := by
  intro s e seq index p status h
  refine ⟨fun hrefused i hi => ?_, fun hrefused i hi => ?_⟩
  · rw [exec_start hi]
    refine ⟨_, rfl, State.takeCommand_answered s e i seq index status [] _ h ?_⟩
    refine (State.start_eq _ p).trans ?_
    rw [show (s.taken e i seq index).startRefusal p = s.startRefusal p from rfl, hrefused]
    rfl
  · rw [exec_stop hi]
    refine ⟨_, rfl, State.takeCommand_answered s e i seq index status [] _ h ?_⟩
    refine (State.stop_eq _ p).trans ?_
    rw [show (s.taken e i seq index).stopRefusal p = s.stopRefusal p from rfl, hrefused]
    rfl

end

section
/-! The entry that START and STOP create (sections 5.2, 6.5 and 6.6). -/

namespace Sys2Proof.Machine

/-- Changing several contexts one after the other changes the contexts alone. -/
theorem State.foldl_modifyStream (f : StreamNo → Stream → Stream) (l : List StreamNo) (hl : l.Nodup) (s : State) :
    l.foldl (fun s n => s.modifyStream n (f n)) s = { s with
      streams := Vector.ofFn (fun n => if n ∈ l then f n (s.stream n) else s.stream n) } := by
  induction l generalizing s with
  | nil =>
    have hstreams : s.streams = Vector.ofFn s.stream := by
      ext i hi
      simp [State.stream]
    simp [← hstreams]
  | cons m l ih =>
    obtain ⟨hm, hl⟩ := List.nodup_cons.1 hl
    have hstream (n : StreamNo) : (if n ∈ l then f n ((s.modifyStream m (f m)).stream n) else (s.modifyStream m (f m)).stream n)
        = if n ∈ m :: l then f n (s.stream n) else s.stream n := by
      unfold State.modifyStream
      rcases eq_or_ne m n with rfl | hne
      · rw [State.stream_putStream, if_neg hm, if_pos List.mem_cons_self]
      · rw [State.stream_putStream_of_ne _ _ hne]
        exact if_congr (by simp [hne.symm]) rfl rfl
    rw [List.foldl_cons, ih hl]
    simp only [hstream]
    rfl

/-- A context that a new entry names (R9, R96). -/
def Stream.namedBy (c : Stream) (id : EntryId) (kind : EntryKind) : Stream :=
  { c with
    scheduleEntry := some id
    state := if kind = .start then .armed else c.state }

theorem State.nameStreams_eq (s : State) (e : ScheduleEntry) :
    s.nameStreams e = { s with
      streams := Vector.ofFn (fun n =>
        if e.streams.getLsbD n.val = true then (s.stream n).namedBy e.id e.kind else s.stream n) } := by
  unfold State.nameStreams
  rw [State.foldl_modifyStream (fun _ c => { c with
    scheduleEntry := some e.id
    state := if e.kind == .start then .armed else c.state }) _ (streamsOf_nodup _)]
  simp only [mem_streamsOf, beq_iff_eq, Stream.namedBy]

theorem State.nameStreams_stream (s : State) (e : ScheduleEntry) (n : StreamNo) :
    (s.nameStreams e).stream n
      = if e.streams.getLsbD n.val = true then (s.stream n).namedBy e.id e.kind else s.stream n := by
  rw [State.nameStreams_eq]
  simp [State.stream]

/-! ### The entry -/

/-- The fire position and the late flag of the entry that a command creates (R97, R98). -/
theorem fireAtCreation_created (p : ScheduleParams) (q : Position) :
    fireAtCreation (createdCondition p) p.target q =
      (if p.condition = condTrigger then none
        else if p.condition = condAt ∧ q.toNat < p.target.toNat then some p.target
        else some (nextPosition q),
       decide (p.condition = condAt ∧ p.target.toNat ≤ q.toNat)) := by
  unfold createdCondition
  by_cases htrigger : p.condition = condTrigger
  · have hat : ¬p.condition = condAt := by rw [htrigger]; decide
    rw [if_pos htrigger, if_pos htrigger, decide_eq_false fun h => hat h.1]
    rfl
  rw [if_neg htrigger, if_neg htrigger]
  by_cases hat : p.condition = condAt
  · rw [if_pos hat]
    by_cases hlt : q.toNat < p.target.toNat
    · rw [if_pos ⟨hat, hlt⟩, decide_eq_false fun h => Nat.not_le.2 hlt h.2]
      exact if_pos hlt
    · rw [if_neg fun h => hlt h.2, decide_eq_true ⟨hat, Nat.le_of_not_lt hlt⟩]
      exact if_neg hlt
  · rw [if_neg hat, if_neg fun h => hat h.1, decide_eq_false fun h => hat h.1]
    rfl

theorem freeId_of_unused {entries : List ScheduleEntry} {start : EntryId} (fuel : Nat)
    (h : ∀ x ∈ entries, x.id ≠ start) : freeId entries fuel start = start := by
  cases fuel with
  | zero => rfl
  | succ fuel =>
    unfold freeId
    rw [if_neg]
    simpa using h

/-- Checks that pass leave the rest to pass. -/
theorem of_ite_some_eq_none {P : Prop} [Decidable P] {st : Status} {rest : Option Status}
    (h : (if P then some st else rest) = none) : ¬P ∧ rest = none := by
  by_cases hP : P
  · rw [if_pos hP] at h
    cases h
  · rw [if_neg hP] at h
    exact ⟨hP, h⟩

theorem State.tableFree_of_startRefusal {s : State} {p : ScheduleParams} (h : s.startRefusal p = none) :
    s.tableFree = true := by
  rw [← Bool.not_eq_false, State.tableFree_eq_false_iff]
  obtain ⟨_, h⟩ := of_ite_some_eq_none h
  obtain ⟨_, h⟩ := of_ite_some_eq_none h
  obtain ⟨_, h⟩ := of_ite_some_eq_none h
  obtain ⟨_, h⟩ := of_ite_some_eq_none h
  obtain ⟨_, h⟩ := of_ite_some_eq_none h
  obtain ⟨_, h⟩ := of_ite_some_eq_none h
  obtain ⟨_, h⟩ := of_ite_some_eq_none h
  obtain ⟨_, h⟩ := of_ite_some_eq_none h
  exact (of_ite_some_eq_none h).1

theorem State.tableFree_of_stopRefusal {s : State} {p : ScheduleParams} (h : s.stopRefusal p = none)
    (hcode : p.condition = condAt ∨ p.condition = condTrigger) : s.tableFree = true := by
  have hnow : ¬p.condition = condNow := by rcases hcode with h | h <;> rw [h] <;> decide
  have hdrain : ¬p.condition = condDrain := by rcases hcode with h | h <;> rw [h] <;> decide
  rw [← Bool.not_eq_false, State.tableFree_eq_false_iff]
  obtain ⟨_, h⟩ := of_ite_some_eq_none h
  obtain ⟨_, h⟩ := of_ite_some_eq_none h
  obtain ⟨_, h⟩ := of_ite_some_eq_none h
  obtain ⟨_, h⟩ := of_ite_some_eq_none h
  rw [if_neg hnow] at h
  obtain ⟨_, h⟩ := of_ite_some_eq_none h
  obtain ⟨_, h⟩ := of_ite_some_eq_none h
  rw [if_neg hdrain] at h
  obtain ⟨_, h⟩ := of_ite_some_eq_none h
  obtain ⟨_, h⟩ := of_ite_some_eq_none h
  obtain ⟨_, h⟩ := of_ite_some_eq_none h
  exact (of_ite_some_eq_none h).1

/-! ### The answer -/

/-- Nothing is offered while no closing event is offerable. -/
theorem State.offerSchedule_of_none {s : State} (h : s.offerableClosing.isSome = false) : s.offerSchedule = s := by
  unfold State.offerSchedule offerClosingFuel
  rw [Option.isSome_eq_false_iff, Option.isNone_iff_eq_none] at h
  split
  · rfl
  · rw [h]

/-- Whether there is room for the Command Unit is up to the list and the other producers. -/
theorem State.roomFor_command {s t : State} (holding : t.events.holding = s.events.holding)
    (offerable : t.offerableClosing.isSome = s.offerableClosing.isSome)
    (lost : t.timebase.lostReports = s.timebase.lostReports)
    (streams : ∀ n, (t.stream n).reportWaits = (s.stream n).reportWaits) :
    t.roomFor commandProducer = s.roomFor commandProducer := by
  refine State.roomFor_congr (congrArg List.length holding) fun q => ?_
  refine producer_cases (P := fun q => q ≠ commandProducer → t.waits q = s.waits q) (fun h => absurd rfl h)
    (fun _ => offerable) (fun _ => ?_) (fun n _ => ?_) q
  · rw [State.waits_timebaseProducer, State.waits_timebaseProducer, lost]
  · rw [State.waits_streamProducer, State.waits_streamProducer, streams n]

/-- A new entry and the naming of its streams change no waiting producer. -/
theorem State.roomFor_created {s : State} {e : ScheduleEntry} (h : e.closing = none) :
    ((s.addEntry e).nameStreams e).roomFor commandProducer = s.roomFor commandProducer := by
  refine State.roomFor_command ?_ ?_ ?_ fun n => ?_
  · rw [State.nameStreams_eq]
    rfl
  · rw [State.nameStreams_eq]
    exact State.offerable_addEntry h
  · rw [State.nameStreams_eq]
    rfl
  · rw [State.nameStreams_stream]
    split <;> rfl

theorem State.waits_of_roomFor {s : State} {p q : Producer} (h : s.roomFor p = true) (hne : q ≠ p) : s.waits q = false :=
  ((State.roomFor_iff s p).1 h).2 q hne

theorem State.produceCmdDone_eq {s : State} {q : CommandInProgress} (h : s.command.inProgress = some q) (st : Status)
    (result : List Byte) (tell : Tell) :
    s.produceCmdDone st result tell =
      if s.roomFor commandProducer = true then
        (s.accept (.cmdDone q.seq q.index st (padTo 16 result))).cmdDonePlaced tell
      else { s with command := { s.command with
        phase := .reporting
        inProgress := some { q with tell := tell }
        slot := some (.cmdDone q.seq q.index st (padTo 16 result)) } } := by
  unfold State.produceCmdDone
  rw [h]

/-- The answer reaches its entry alone, where no other has its id (R108). -/
theorem map_answered_append {entries : List ScheduleEntry} {x : ScheduleEntry} (h : ∀ y ∈ entries, y.id ≠ x.id) :
    (entries ++ [x]).map (fun y => if y.id == x.id then { y with creationAnswered := true } else y)
      = entries ++ [{ x with creationAnswered := true }] := by
  rw [List.map_append, List.map_singleton, if_pos (beq_self_eq_true _)]
  congr 1
  refine (List.map_congr_left fun y hy => ?_).trans (List.map_id _)
  rw [if_neg (by simpa using h y hy)]
  rfl

/-- The creation of an entry under an unused id leaves the entry, its named streams and the answer (R96, R131). -/
theorem State.createEntry_taken {s : State} {e : TransferId} {kind : EntryKind} {i : Instr} {seq : BitVec 16} {index : Nat}
    {p : ScheduleParams} (hfree : s.tableFree = true) :
    (s.taken e i seq index).createEntry kind (s.setGeneratorOf p.streams) (createdCondition p) p
      = s.created e kind (freeId s.schedule.entries 8 s.schedule.idCounter) i seq index p := by
  let v := s.taken e i seq index
  let x := v.newEntry kind (s.setGeneratorOf p.streams) (createdCondition p) p.target p.streams
  have hunused : ∀ y ∈ s.schedule.entries, y.id ≠ x.id := State.newEntry_unused kind _ _ p.target p.streams hfree
  have hroom : ((v.addEntry x).nameStreams x).roomFor commandProducer = s.roomFor commandProducer :=
    (State.roomFor_created rfl).trans (State.roomFor_command rfl rfl rfl fun _ => rfl)
  have hfire := fireAtCreation_created p (s.generator (s.setGeneratorOf p.streams)).position
  obtain ⟨hposition, hlate⟩ := Prod.ext_iff.1 hfire
  dsimp only at hposition hlate
  have hprogress : ((v.addEntry x).nameStreams x).command.inProgress = some ⟨i, index, seq, [], .nobody⟩ := by
    rw [State.nameStreams_eq]
    rfl
  show ((v.addEntry x).nameStreams x).produceCmdDone .pending (entryResult x.id x.late x.firePosition) (.entry x.id) = _
  rw [State.produceCmdDone_eq hprogress, hroom, State.nameStreams_eq]
  by_cases hr : s.roomFor commandProducer = true
  · rw [if_pos hr]
    unfold State.cmdDonePlaced State.modifyEntry State.accept State.addEntry
    dsimp only
    rw [map_answered_append (by exact hunused)]
    rw [State.offerSchedule_of_none]
    · have hr' : (s.putTransfer e none).roomFor commandProducer = true := hr
      unfold State.created State.answered
      dsimp only
      rw [if_pos hr', hr, ← hposition, ← hlate]
      rfl
    · have hnone := State.waits_of_roomFor hr (q := scheduleProducer) (by decide)
      rw [State.waits_scheduleProducer,
        ← State.offerable_addEntry (s := s) (e := { x with creationAnswered := true }) rfl] at hnone
      exact hnone
  · rw [if_neg hr]
    have hr' : ¬(s.putTransfer e none).roomFor commandProducer = true := hr
    unfold State.created State.answered
    dsimp only
    rw [if_neg hr', Bool.eq_false_iff.2 hr, ← hposition, ← hlate]
    rfl

end Sys2Proof.Machine

open Sys2Proof Sys2Proof.Machine

/-- Settles O25: the checks pass, and the entry is created in the state in which the command is taken. -/
theorem startStopCreateEntry : Obligations.StartStopCreateEntry := by
  intro s e seq index p i kind h hcases
  have close (execute : State → State) (hfree : s.tableFree = true)
      (hx : execute (s.taken e i seq index)
        = (s.taken e i seq index).createEntry kind (s.setGeneratorOf p.streams) (createdCondition p) p)
      (hexec : exec i s = .next (s.takeCommand e i seq execute)) :
      ∃ t id, exec i s = .next t ∧ (∀ x ∈ s.schedule.entries, x.id ≠ id)
        ∧ ((∀ x ∈ s.schedule.entries, x.id ≠ s.schedule.idCounter) → id = s.schedule.idCounter)
        ∧ (s.created e kind id i seq index p).grantsTo t := by
    refine ⟨_, _, hexec, State.newEntry_unused kind 0 .next 0 0 hfree, freeId_of_unused 8, ?_⟩
    rw [State.takeCommand_eq s e i seq index execute h, hx, State.createEntry_taken hfree]
    exact State.finish_grantsTo _
  rcases hcases with ⟨rfl, hrefusal, hi⟩ | ⟨rfl, hrefusal, hcode, hi⟩
  · refine close (fun s => s.start p) (State.tableFree_of_startRefusal hrefusal) ?_ (exec_start hi s)
    refine (State.start_eq _ p).trans ?_
    rw [show (s.taken e i seq index).startRefusal p = s.startRefusal p from rfl, hrefusal]
    rfl
  · have hnow : ¬p.condition = condNow := by rcases hcode with h | h <;> rw [h] <;> decide
    have hdrain : ¬p.condition = condDrain := by rcases hcode with h | h <;> rw [h] <;> decide
    refine close (fun s => s.stop p) (State.tableFree_of_stopRefusal hrefusal hcode) ?_
      (exec_stop (.inr (hi.imp_right .inl)) s)
    refine (State.stop_eq _ p).trans ?_
    rw [show (s.taken e i seq index).stopRefusal p = s.stopRefusal p from rfl, hrefusal]
    exact (if_neg hnow).trans (if_neg hdrain)

end

section
/-! The lanes and their frames (sections 1.9, 3.1 and 3.8). -/

namespace Sys2Proof.Machine

/-! ### Bits of samples and of bytes -/

theorem msbBits_getElem? (n x k : Nat) (h : k < n) : (msbBits n x)[k]? = some (x.testBit (n - 1 - k)) := by
  induction n generalizing k with
  | zero => omega
  | succ n ih =>
    cases k with
    | zero => simp [msbBits, Nat.testBit_eq_decide_div_mod_eq, Bool.beq_eq_decide_eq]
    | succ k =>
      rw [msbBits, List.getElem?_cons_succ, ih k (by omega), show n + 1 - 1 - (k + 1) = n - 1 - k by omega]

/-- Bit `i` of a number is bit `i % 8` of its byte `i / 8` (section 6.1). -/
theorem ofLeBytes_testBit (bytes : List Byte) (i : Nat) :
    (ofLeBytes bytes).testBit i = (bytes.getD (i / 8) 0).getLsbD (i % 8) := by
  induction bytes generalizing i with
  | nil => simp [ofLeBytes]
  | cons b bytes ih =>
    have hsplit : ofLeBytes (b :: bytes) = 2 ^ 8 * ofLeBytes bytes + b.toNat := by
      rw [ofLeBytes]
      omega
    rw [hsplit, Nat.testBit_two_pow_mul_add _ b.isLt]
    split
    · rename_i h
      rw [Nat.div_eq_of_lt h, Nat.mod_eq_of_lt h]
      rfl
    · rename_i h
      rw [ih, show i / 8 = (i - 8) / 8 + 1 by omega, List.getD_cons_succ, show (i - 8) % 8 = i % 8 by omega]

theorem padTo_of_length_le {n : Nat} {bytes : List Byte} (h : n ≤ bytes.length) : padTo n bytes = bytes.take n := by
  rw [padTo, List.take_append_of_le_length h]

/-- The bits of a frame: slot by slot, the most significant bit of each sample first (R23). -/
theorem bitsOfFrame_getElem? {width : Nat} (hw : width = 16 ∨ width = 32) (slots : Nat) (frame : List Byte) {slot k : Nat}
    (hslot : slot < slots) (hk : k < width) :
    (bitsOfFrame width slots frame)[slot * width + k]?
      = some ((frame.getD (slot * (width / 8) + (width - 1 - k) / 8) 0).getLsbD ((width - 1 - k) % 8)) := by
  induction slots generalizing slot frame with
  | zero => omega
  | succ slots ih =>
    rw [bitsOfFrame]
    cases slot with
    | zero =>
      rw [Nat.zero_mul, Nat.zero_add, List.getElem?_append_left (by simpa using hk), msbBits_getElem? _ _ _ hk,
        ofLeBytes_testBit, padTo_getD _ _ _ (by omega), Nat.zero_mul, Nat.zero_add]
    | succ slot =>
      have hindex : (slot + 1) * width + k - width = slot * width + k := by
        rw [Nat.succ_mul]
        omega
      rw [List.getElem?_append_right (by rw [msbBits_length, Nat.succ_mul]; omega), msbBits_length, hindex,
        ih _ (by omega), List.getD_eq_getElem?_getD, List.getElem?_drop, ← List.getD_eq_getElem?_getD,
        Nat.succ_mul, Nat.add_comm (slot * (width / 8)) (width / 8), Nat.add_assoc]

theorem foldl_msb (bits : List Bool) (a : Nat) :
    bits.foldl (fun acc b => 2 * acc + b.toNat) a = a * 2 ^ bits.length + msbNat bits := by
  induction bits generalizing a with
  | nil => simp [msbNat]
  | cons b bits ih =>
    have hcons : msbNat (b :: bits) = (2 * 0 + b.toNat) * 2 ^ bits.length + msbNat bits := ih _
    rw [List.foldl_cons, ih, hcons, List.length_cons, Nat.pow_succ]
    ring

/-- A sample is the number that its bits spell (R23). -/
theorem msbNat_msbBits (n x : Nat) : msbNat (msbBits n x) = x % 2 ^ n := by
  induction n with
  | zero => simp [msbBits, msbNat, Nat.mod_one]
  | succ n ih =>
    rw [msbBits, msbNat, List.foldl_cons, foldl_msb, ih, msbBits_length, Nat.mul_zero, Nat.zero_add,
      Nat.mod_pow_succ, Nat.add_comm, Nat.mul_comm]
    rcases Nat.mod_two_eq_zero_or_one (x / 2 ^ n) with h | h <;> simp [h]

theorem frameOfBits_append {width : Nat} (slots : Nat) {bits : List Bool} (rest : List Bool) (h : bits.length = width) :
    frameOfBits width (slots + 1) (bits ++ rest) = leBytes (width / 8) (msbNat bits) ++ frameOfBits width slots rest := by
  have hnone : width - (bits ++ rest).length = 0 := by
    rw [List.length_append]
    omega
  rw [frameOfBits, hnone, List.take_left' h, List.drop_left' h, List.replicate_zero, List.append_nil]

/-- The bits that carry a frame make the same frame again (R23, R50). -/
theorem frameOfBits_bitsOfFrame {width : Nat} (hw : width = 16 ∨ width = 32) (slots : Nat) (frame : List Byte)
    (h : frame.length = slots * (width / 8)) : frameOfBits width slots (bitsOfFrame width slots frame) = frame := by
  induction slots generalizing frame with
  | zero => exact (List.length_eq_zero_iff.1 (by simpa using h)).symm
  | succ slots ih =>
    rw [Nat.succ_mul] at h
    have hpow : 256 ^ (width / 8) = 2 ^ width := by rcases hw with rfl | rfl <;> rfl
    have htake : (frame.take (width / 8)).length = width / 8 := List.length_take_of_le (by omega)
    have hlt := ofLeBytes_lt (frame.take (width / 8))
    have hbytes := leBytes_ofLeBytes (frame.take (width / 8))
    rw [htake] at hlt hbytes
    rw [bitsOfFrame, frameOfBits_append _ _ (msbBits_length _ _), padTo_of_length_le (by omega), msbNat_msbBits,
      Nat.mod_eq_of_lt (hpow ▸ hlt), ih _ (by rw [List.length_drop]; omega), hbytes, List.take_append_drop]

/-! ### The signals of a lane -/

theorem bitPeriod_first_iff {width slot k : Nat} (hk : k < width) : slot * width + k < width ↔ slot = 0 := by
  cases slot with
  | zero => simpa using hk
  | succ slot =>
    rw [Nat.succ_mul]
    omega

theorem bitPeriod_last_iff {slots width slot k : Nat} (hslot : slot < slots) (hk : k < width) :
    slot * width + k + 1 = slots * width ↔ slot + 1 = slots ∧ k + 1 = width := by
  constructor
  · intro h
    have hlast : slot + 1 = slots := by
      by_contra hne
      have := Nat.mul_le_mul_right width (show slot + 2 ≤ slots by omega)
      rw [Nat.add_mul] at this
      omega
    refine ⟨hlast, ?_⟩
    rw [← hlast, Nat.succ_mul] at h
    omega
  · rintro ⟨rfl, hlast⟩
    rw [Nat.succ_mul]
    omega

/-- The output data of a frame period (R23, R71). -/
def Stream.laneBits (c : Stream) (frame : List Byte) : List Bool :=
  match c.direction with
  | .output => bitsOfFrame c.width c.slots frame
  | .capture => List.replicate (c.slots * c.width) false

theorem Stream.laneBits_output {c : Stream} (frame : List Byte) (h : c.direction = .output) :
    c.laneBits frame = bitsOfFrame c.width c.slots frame := by
  rw [Stream.laneBits, h]

theorem Stream.laneBits_capture {c : Stream} (frame : List Byte) (h : c.direction = .capture) :
    c.laneBits frame = List.replicate (c.slots * c.width) false := by
  rw [Stream.laneBits, h]

theorem Stream.laneBits_length (c : Stream) (frame : List Byte) : (c.laneBits frame).length = c.slots * c.width := by
  cases h : c.direction with
  | output => rw [Stream.laneBits_output frame h, bitsOfFrame_length]
  | capture => rw [Stream.laneBits_capture frame h, List.length_replicate]

theorem State.laneSignal_active {s : State} {n : StreamNo} (h : (s.port n).active = true) :
    s.laneSignal n = .framePeriod (bitClock (s.stream n).idleLevel) (s.stream n).changeEdge
      (otherEdge (s.stream n).changeEdge)
      (((s.stream n).laneBits (s.port n).frame).mapIdx fun i b =>
        ⟨syncAt (s.stream n).syncForm (s.stream n).slots (s.stream n).width i, levelOfBool b⟩) := by
  rw [State.laneSignal, h]
  rfl

theorem syncAt_level {slots width slot k : Nat} (hk : k < width) :
    syncAt .level slots width (slot * width + k) = levelOfBool (slot == 0) := by
  rw [syncAt, Bool.beq_eq_decide_eq, decide_eq_decide.2 (bitPeriod_first_iff hk)]

theorem syncAt_pulse {slots width slot k : Nat} (hslot : slot < slots) (hk : k < width) :
    syncAt .pulse slots width (slot * width + k) = levelOfBool (slot + 1 == slots && k + 1 == width) := by
  rw [syncAt, Bool.beq_eq_decide_eq, Bool.beq_eq_decide_eq, ← Bool.decide_and,
    decide_eq_decide.2 (bitPeriod_last_iff hslot hk)]

end Sys2Proof.Machine

open Sys2Proof Sys2Proof.Machine

/-- Settles O51: the bits of the frame period one by one, and the frame from its bits. -/
theorem laneCarriesFrame : Obligations.LaneCarriesFrame := by
  refine ⟨fun s n => ?_, fun width slots frame hw hframe => ?_⟩
  · intro c level
    refine ⟨fun hquiet => by simp [State.laneSignal, hquiet, c], fun hactive hw _ => ?_⟩
    refine ⟨_, _, _, State.laneSignal_active hactive, rfl, ?_, ?_, ?_, ?_, fun slot hslot k hk => ?_⟩
    · show edgeFrom c.idleLevel = _
      cases c.idleLevel <;> rfl
    · show otherEdge (edgeFrom c.idleLevel) = _
      cases c.idleLevel <;> rfl
    · show otherEdge c.changeEdge ≠ c.changeEdge
      cases c.changeEdge <;> decide
    · rw [List.length_mapIdx, Stream.laneBits_length]
    · have close (b : Bool) (sync : Level) (hb : (c.laneBits (s.port n).frame)[slot * c.width + k]? = some b)
          (hsync : syncAt c.syncForm c.slots c.width (slot * c.width + k) = sync) :
          ((c.laneBits (s.port n).frame).mapIdx fun i b =>
            (⟨syncAt c.syncForm c.slots c.width i, levelOfBool b⟩ : LaneBit))[slot * c.width + k]?
            = some ⟨sync, levelOfBool b⟩ := by
        rw [List.getElem?_mapIdx, hb, ← hsync]
        rfl
      have hform : c.syncForm = .level ∨ c.syncForm = .pulse := by cases c.syncForm <;> simp
      have hdirection : c.direction = .output ∨ c.direction = .capture := by cases c.direction <;> simp
      rcases hdirection with hd | hd
      · have hbit := bitsOfFrame_getElem? hw c.slots (s.port n).frame hslot hk
        rw [← Stream.laneBits_output _ hd] at hbit
        rcases hform with hf | hf
        · refine (close _ _ hbit ((congrArg (syncAt · _ _ _) hf).trans (syncAt_level hk))).trans ?_
          rw [hf, hd]
          rfl
        · refine (close _ _ hbit ((congrArg (syncAt · _ _ _) hf).trans (syncAt_pulse hslot hk))).trans ?_
          rw [hf, hd]
          rfl
      · have hlt := Nat.mul_le_mul_right c.width hslot
        rw [Nat.succ_mul] at hlt
        have hbit : (c.laneBits (s.port n).frame)[slot * c.width + k]? = some false := by
          rw [Stream.laneBits_capture _ hd, List.getElem?_replicate_of_lt (by omega)]
        rcases hform with hf | hf
        · refine (close _ _ hbit ((congrArg (syncAt · _ _ _) hf).trans (syncAt_level hk))).trans ?_
          rw [hf, hd]
          rfl
        · refine (close _ _ hbit ((congrArg (syncAt · _ _ _) hf).trans (syncAt_pulse hslot hk))).trans ?_
          rw [hf, hd]
          rfl
  · have hlength : frame.length = slots * (width / 8) := by rcases hw with rfl | rfl <;> omega
    exact ⟨bitsOfFrame_length width slots frame, frameOfBits_bitsOfFrame hw slots frame hlength⟩

end

section
/-! The Timebase Unit's trigger edges: what a selected transition makes due, and its notice. -/

namespace Sys2Proof.Machine

theorem EdgeSelection.selects_iff (sel : EdgeSelection) (edge : Edge) :
    sel.selects edge = true
      ↔ sel = .both ∨ (sel = .rising ∧ edge = .rising) ∨ (sel = .falling ∧ edge = .falling) := by
  cases sel <;> cases edge <;> simp [EdgeSelection.selects]

/-- The state in which a trigger edge leaves its line's entries: the rule of the model with its test as a
proposition. -/
theorem State.makeDue_eq (s : State) (l : LineNo) :
    s.makeDue l = { s with schedule := { s.schedule with
      entries := s.schedule.entries.map (fun y =>
        if y.state = .waiting ∧ y.condition = .trigger l ∧ y.firePosition = none then
          { y with firePosition := some (nextPosition (s.generator y.generator).position) }
        else y) } } := by
  simp only [State.makeDue, beq_iff_eq, Bool.and_eq_true, and_assoc, Option.isNone_iff_eq_none]

theorem State.triggerMarks_eq (s : State) :
    s.triggerMarks = Config.generators.map fun g =>
      ((s.generator g).state, if (s.generator g).state = .off then 0 else (s.generator g).position) := by
  simp only [State.triggerMarks, beq_iff_eq]

theorem State.offerTrigger_eq (s : State) (l : LineNo) (edge : Edge) :
    s.offerTrigger l edge =
      if 8 ≤ s.events.holding.length then
        s.putLine l { s.line l with missed := min 65535 ((s.line l).missed + 1) }
      else (s.accept (.trigger l edge (s.line l).missed s.triggerMarks)).putLine l { s.line l with missed := 0 } := by
  by_cases h : 8 ≤ s.events.holding.length
  · have hp : s.placeFree = false := decide_eq_false (Nat.not_lt.2 h)
    rw [State.offerTrigger, hp, if_pos h]
    rfl
  · have hp : s.placeFree = true := decide_eq_true (Nat.not_le.1 h)
    rw [State.offerTrigger, hp, if_neg h]
    rfl

end Sys2Proof.Machine

open Sys2Proof Sys2Proof.Machine

/-- Settles O49: a selected edge in ACTIVE, without and with a report and its place, and every other edge. -/
theorem triggerEdgeTaken : Obligations.TriggerEdgeTaken := by
  intro s l edge x selected due marks noticed
  have hselects := EdgeSelection.selects_iff x.selection edge
  have hexec : exec (.triggerEdge l edge) s = execTriggerEdge l edge s := rfl
  refine ⟨fun hactive hsel => ?_, fun hnone => ?_⟩
  · refine ⟨_, hexec.trans (congrArg Host.Outcome.next (if_pos (Bool.and_eq_true_iff.2 ⟨hactive, hselects.2 hsel⟩))), ?_⟩
    have hnoticed : noticed
        = if ((s.makeDue l).line l).report then (s.makeDue l).offerTrigger l edge else s.makeDue l := by
      rw [State.makeDue_eq, State.offerTrigger_eq, State.triggerMarks_eq]
      by_cases hr : x.report = false
      · exact (if_pos hr).trans (if_neg (ne_true_of_eq_false hr)).symm
      · exact (if_neg hr).trans (if_pos (eq_true_of_ne_false hr)).symm
    rw [hnoticed]
    exact State.finish_grantsTo _
  · refine hexec.trans (congrArg Host.Outcome.next (if_neg fun h => ?_))
    obtain ⟨hactive, hsel⟩ := Bool.and_eq_true_iff.1 h
    rcases hnone with hnone | hnone
    · exact Bool.false_ne_true (hnone.symm.trans hactive)
    · exact hnone (hselects.1 hsel)

end

section
/-! The bytes of a command record: a field read back from the fields that were laid one behind the other. -/

namespace Sys2Proof.Machine

theorem ofLeBytes_append_zeros (bytes : List Byte) (n : Nat) :
    ofLeBytes (bytes ++ List.replicate n 0) = ofLeBytes bytes := by
  induction bytes with
  | nil =>
    induction n with
    | zero => rfl
    | succ n ih => simpa [List.replicate_succ, ofLeBytes] using ih
  | cons b bytes ih => simp only [List.cons_append, ofLeBytes, ih]

theorem field_padTo {size offset n : Nat} (bytes : List Byte) (h : offset + n ≤ size) :
    field (padTo size bytes) offset n = field bytes offset n := by
  have hwindow : ((bytes ++ List.replicate size 0).drop offset).take n
      = (bytes.drop offset).take n ++ List.replicate (min (n - (bytes.drop offset).length) (size - (offset - bytes.length))) 0 := by
    rw [List.drop_append, List.take_append, List.drop_replicate, List.take_replicate]
  rw [field, padTo, List.drop_take, List.take_take, Nat.min_eq_left (by omega), hwindow, ofLeBytes_append_zeros, field]

theorem field_leBytes (n : Nat) (x : Nat) : field (leBytes n x) 0 n = x % 256 ^ n := by
  have h := ofLeBytes_leBytes n x
  rwa [← List.take_of_length_le (leBytes_length n x).le] at h

theorem field_append_here (n x : Nat) (bytes : List Byte) : field (leBytes n x ++ bytes) 0 n = x % 256 ^ n := by
  rw [← field_leBytes, field, field, List.drop_zero, List.drop_zero, List.take_append_of_le_length (leBytes_length n x).ge]

theorem field_append_beyond {k offset n : Nat} (x : Nat) (bytes : List Byte) (h : k ≤ offset) :
    field (leBytes k x ++ bytes) offset n = field bytes (offset - k) n := by
  rw [field, field, List.drop_append, List.drop_of_length_le ((leBytes_length k x).le.trans h), leBytes_length,
    List.nil_append]

/-- The bytes of a word are enough to hold it, so the word is read back whole. -/
theorem ofNat_toNat_mod_bytes {w : Nat} (v : BitVec w) {n : Nat} (h : w ≤ 8 * n) :
    BitVec.ofNat w (v.toNat % 256 ^ n) = v := by
  have hlt : v.toNat < 256 ^ n :=
    calc v.toNat < 2 ^ w := v.isLt
      _ ≤ 2 ^ (8 * n) := Nat.pow_le_pow_right (by decide) h
      _ = 256 ^ n := by rw [Nat.pow_mul]
  rw [Nat.mod_eq_of_lt hlt, BitVec.ofNat_toNat, BitVec.setWidth_eq]

theorem commandBytes_length (kind : Nat) (seq : BitVec 16) (params : List Byte) :
    (encodeCommandRecord.commandBytes kind seq params).length = 64 := padTo_length 64 _

theorem commandBytes_kind {kind : Nat} (seq : BitVec 16) (params : List Byte) (h : kind < 256) :
    field (encodeCommandRecord.commandBytes kind seq params) 0 1 = kind := by
  rw [encodeCommandRecord.commandBytes, field_padTo _ (by decide)]
  show field (leBytes 1 kind ++ (leBytes 1 (kind / 256) ++ leBytes 2 seq.toNat ++ leBytes 4 0 ++ params)) 0 1 = kind
  rw [field_append_here]
  exact Nat.mod_eq_of_lt h

theorem commandBytes_seq (kind : Nat) (seq : BitVec 16) (params : List Byte) :
    BitVec.ofNat 16 (field (encodeCommandRecord.commandBytes kind seq params) 2 2) = seq := by
  rw [encodeCommandRecord.commandBytes, field_padTo _ (by decide), List.append_assoc, List.append_assoc,
    field_append_beyond _ _ (by decide), field_append_here]
  exact ofNat_toNat_mod_bytes seq (by decide)

theorem commandBytes_param {kind offset n : Nat} (seq : BitVec 16) (params : List Byte) (h : 8 ≤ offset)
    (hn : offset + n ≤ 64) :
    field (encodeCommandRecord.commandBytes kind seq params) offset n = field params (offset - 8) n := by
  rw [encodeCommandRecord.commandBytes, field_padTo _ hn, List.append_assoc, List.append_assoc,
    field_append_beyond _ _ (by omega), field_append_beyond _ _ (by omega), field_append_beyond _ _ (by omega),
    Nat.sub_sub, Nat.sub_sub]

theorem decodeGeneratorParams_commandBytes (kind : Nat) (seq : BitVec 16) (p : GeneratorParams) :
    decodeGeneratorParams (encodeCommandRecord.commandBytes kind seq (leBytes 1 p.generator.toNat
      ++ leBytes 1 p.source.toNat ++ leBytes 2 p.divider.toNat ++ leBytes 4 p.frequency.toNat
      ++ leBytes 1 p.lossWindow.toNat)) = p := by
  simp only [decodeGeneratorParams, List.append_assoc, commandBytes_param, field_append_here, field_append_beyond,
    field_leBytes, ofNat_toNat_mod_bytes, Nat.reduceLeDiff, Nat.reduceSub, Nat.reduceAdd, Nat.reduceMul, le_refl]

theorem decodeOpenParams_commandBytes (kind : Nat) (seq : BitVec 16) (p : OpenParams) :
    decodeOpenParams (encodeCommandRecord.commandBytes kind seq (leBytes 1 p.stream.toNat
      ++ leBytes 1 p.direction.toNat ++ leBytes 1 p.generator.toNat ++ leBytes 1 p.slots.toNat
      ++ leBytes 1 p.width.toNat ++ leBytes 1 p.idleLevel.toNat ++ leBytes 1 p.changeEdge.toNat
      ++ leBytes 1 p.syncForm.toNat ++ leBytes 1 p.policy.toNat ++ leBytes 7 0 ++ leBytes 8 p.base.toNat
      ++ leBytes 2 p.size.toNat ++ leBytes 2 p.start.toNat)) = p := by
  simp only [decodeOpenParams, List.append_assoc, commandBytes_param, field_append_here, field_append_beyond,
    field_leBytes, ofNat_toNat_mod_bytes, Nat.reduceLeDiff, Nat.reduceSub, Nat.reduceAdd, Nat.reduceMul, le_refl]

theorem decodeScheduleParams_commandBytes (kind : Nat) (seq : BitVec 16) (p : ScheduleParams) :
    decodeScheduleParams (encodeCommandRecord.commandBytes kind seq (encodeCommandRecord.scheduleBytes p)) = p := by
  simp only [decodeScheduleParams, encodeCommandRecord.scheduleBytes, List.append_assoc, commandBytes_param,
    field_append_here, field_append_beyond, field_leBytes, ofNat_toNat_mod_bytes, Nat.reduceLeDiff, Nat.reduceSub,
    Nat.reduceAdd, Nat.reduceMul, le_refl]

/-- A command whose one parameter is a byte. -/
theorem byte_commandBytes (kind : Nat) (seq : BitVec 16) (v : Byte) :
    BitVec.ofNat 8 (field (encodeCommandRecord.commandBytes kind seq (leBytes 1 v.toNat)) 8 1) = v := by
  rw [commandBytes_param seq _ (by decide) (by decide), field_leBytes]
  exact ofNat_toNat_mod_bytes v (by decide)

/-- A command whose parameters are three bytes. -/
theorem bytes_commandBytes (kind : Nat) (seq : BitVec 16) (u v w : Byte) :
    let bytes := encodeCommandRecord.commandBytes kind seq (leBytes 1 u.toNat ++ leBytes 1 v.toNat ++ leBytes 1 w.toNat)
    BitVec.ofNat 8 (field bytes 8 1) = u ∧ BitVec.ofNat 8 (field bytes 9 1) = v ∧ BitVec.ofNat 8 (field bytes 10 1) = w := by
  simp only [List.append_assoc, commandBytes_param, field_append_here, field_append_beyond, field_leBytes,
    ofNat_toNat_mod_bytes, Nat.reduceLeDiff, Nat.reduceSub, Nat.reduceAdd, Nat.reduceMul, le_refl, and_self]

/-- A START record with its kind and parameters read back: the condition names its row. -/
theorem decode_start (e : TransferId) (seq : BitVec 16) (p : ScheduleParams) :
    decodeCommandRecord e (encodeCommandRecord.commandBytes 6 seq (encodeCommandRecord.scheduleBytes p))
      = if p.condition == condAt then .startAt e seq p
        else if p.condition == condTrigger then .startTrigger e seq p
        else .startNext e seq p := by
  rw [decodeCommandRecord, commandBytes_kind _ _ (by decide), commandBytes_seq, decodeScheduleParams_commandBytes]
  rfl

theorem decode_stop (e : TransferId) (seq : BitVec 16) (p : ScheduleParams) :
    decodeCommandRecord e (encodeCommandRecord.commandBytes 7 seq (encodeCommandRecord.scheduleBytes p))
      = if p.condition == condAt then .stopAt e seq p
        else if p.condition == condTrigger then .stopTrigger e seq p
        else if p.condition == condDrain then .stopDrain e seq p
        else .stopNow e seq p := by
  rw [decodeCommandRecord, commandBytes_kind _ _ (by decide), commandBytes_seq, decodeScheduleParams_commandBytes]
  rfl

theorem decode_unknown (e : TransferId) (seq : BitVec 16) {kind : Byte} (h : 10 < kind.toNat) :
    decodeCommandRecord e (encodeCommandRecord.commandBytes kind.toNat seq []) = .unknownCommandKind e seq kind := by
  rw [decodeCommandRecord, commandBytes_kind _ _ kind.isLt, commandBytes_seq]
  dsimp only
  rw [BitVec.ofNat_toNat, BitVec.setWidth_eq]
  split
  case h_12 => rfl
  all_goals omega

theorem encodeCommandRecord_length {i : Instr} {bytes : List Byte} (h : encodeCommandRecord i = some bytes) :
    bytes.length = 64 := by
  cases i <;> cases h <;> exact commandBytes_length _ _ _

end Sys2Proof.Machine

open Sys2Proof Sys2Proof.Machine

/-- Settles O52: row by row, from the fields of the record. -/
theorem commandRecordRoundTrip : Obligations.CommandRecordRoundTrip := by
  intro i e bytes hwf he hb
  refine ⟨encodeCommandRecord_length hb, ?_⟩
  cases i with
  | nop _ seq =>
    cases he; cases hb
    rw [decodeCommandRecord, commandBytes_kind _ _ (by decide), commandBytes_seq]
    rfl
  | setGenerator _ seq p =>
    cases he; cases hb
    rw [decodeCommandRecord, commandBytes_kind _ _ (by decide), commandBytes_seq, decodeGeneratorParams_commandBytes]
    rfl
  | enableGenerator _ seq g =>
    cases he; cases hb
    rw [decodeCommandRecord, commandBytes_kind _ _ (by decide), commandBytes_seq]
    exact congrArg (Instr.enableGenerator e seq) (byte_commandBytes 2 seq g)
  | disableGenerator _ seq g =>
    cases he; cases hb
    rw [decodeCommandRecord, commandBytes_kind _ _ (by decide), commandBytes_seq]
    exact congrArg (Instr.disableGenerator e seq) (byte_commandBytes 3 seq g)
  | openStream _ seq p =>
    cases he; cases hb
    rw [decodeCommandRecord, commandBytes_kind _ _ (by decide), commandBytes_seq, decodeOpenParams_commandBytes]
    rfl
  | closeStream _ seq n =>
    cases he; cases hb
    rw [decodeCommandRecord, commandBytes_kind _ _ (by decide), commandBytes_seq]
    exact congrArg (Instr.closeStream e seq) (byte_commandBytes 5 seq n)
  | startNext _ seq p | startAt _ seq p | startTrigger _ seq p =>
    cases he; cases hb
    refine (decode_start e seq p).trans ?_
    simp_all [WellFormed, show condTrigger ≠ condAt by decide]
  | stopNow _ seq p | stopAt _ seq p | stopTrigger _ seq p | stopDrain _ seq p =>
    cases he; cases hb
    refine (decode_stop e seq p).trans ?_
    simp_all [WellFormed, show condTrigger ≠ condAt by decide, show condDrain ≠ condAt by decide,
      show condDrain ≠ condTrigger by decide]
  | cancel _ seq id =>
    cases he; cases hb
    rw [decodeCommandRecord, commandBytes_kind _ _ (by decide), commandBytes_seq]
    exact congrArg (Instr.cancel e seq) (byte_commandBytes 8 seq id)
  | setTrigger _ seq l x r =>
    cases he; cases hb
    obtain ⟨hl, hx, hr⟩ := bytes_commandBytes 9 seq l x r
    rw [decodeCommandRecord, commandBytes_kind _ _ (by decide), commandBytes_seq]
    exact congr (congrArg₂ (Instr.setTrigger e seq) hl hx) hr
  | query _ seq k n p =>
    cases he; cases hb
    obtain ⟨hk, hn, hp⟩ := bytes_commandBytes 10 seq k n p
    rw [decodeCommandRecord, commandBytes_kind _ _ (by decide), commandBytes_seq]
    exact congr (congrArg₂ (Instr.query e seq) hk hn) hp
  | unknownCommandKind _ seq kind =>
    cases he; cases hb
    exact decode_unknown e seq (of_decide_eq_true hwf)
  | _ => cases hb

end

section
/-! What reporting leaves alone: the held events grow at their tail, and the Outstanding Transfer Table is as it was. -/

namespace Sys2Proof.Machine

/-- The Event Unit of `t` is that of `s` with events at the tail of the list. -/
def State.EventsGrow (s t : State) : Prop :=
  ∃ more, t.events = { s.events with holding := s.events.holding ++ more }

theorem State.EventsGrow.refl (s : State) : s.EventsGrow s := ⟨[], by rw [List.append_nil]⟩

theorem State.EventsGrow.of_eq {s t : State} (h : t.events = s.events) : s.EventsGrow t :=
  ⟨[], by rw [List.append_nil, h]⟩

theorem State.EventsGrow.trans {s t u : State} (h : s.EventsGrow t) (k : t.EventsGrow u) : s.EventsGrow u := by
  obtain ⟨more, hm⟩ := h
  obtain ⟨more', hm'⟩ := k
  exact ⟨more ++ more', by rw [hm', hm, List.append_assoc]⟩

theorem State.EventsGrow.accept (s : State) (e : Event) : s.EventsGrow (s.accept e) := ⟨[⟨e, false⟩], rfl⟩

theorem State.EventsGrow.heldEvents {s t : State} (h : s.EventsGrow t) : s.heldEvents <+: t.heldEvents := by
  obtain ⟨more, hm⟩ := h
  exact ⟨more.map (fun x => x.event), by rw [State.heldEvents, State.heldEvents, hm, List.map_append]⟩

theorem State.discardReads_events (s : State) (n : StreamNo) : (s.discardReads n).events = s.events := by
  rw [State.discardReads_eq]

/-- No operation of the blocks takes a held event out, moves one or moderates. -/
theorem eventsGrow_kept (s : State) : State.Kept (fun _ => True) s.EventsGrow where
  accept := fun t e h _ => h.trans (.accept t e)
  context := fun _ _ _ h _ _ => h
  close := fun _ _ h _ _ => h
  port := fun _ _ _ h _ => h
  discard := fun t n h _ => h.trans (.of_eq (t.discardReads_events n))
  command := fun _ _ h _ => h
  schedule := fun _ _ h _ => h

/-! ### The table stands -/

theorem sameTransfers_schedule (s : State) : State.KeptBySchedule (fun t => t.transfers = s.transfers) where
  places := fun _ _ _ h _ _ => h
  schedule := fun _ _ h _ => h

theorem sameTransfers_reports (s : State) (n : StreamNo) : State.KeptByReports n (fun t => t.transfers = s.transfers) where
  accept := fun _ _ h _ => h
  stream := fun _ _ h _ => h
  close := fun _ h _ _ => h
  quiet := fun _ h _ => h
  arrived := fun _ h => h
  hand := fun _ r h _ => (sameTransfers_schedule s).handRemoval n r h
  answer := fun _ id h _ => (sameTransfers_schedule s).answerEntry id n h

theorem State.settle_transfers (s : State) (n : StreamNo) : (s.settle n).transfers = s.transfers :=
  (sameTransfers_reports s n).settle rfl

theorem State.offerSchedule_transfers (s : State) : s.offerSchedule.transfers = s.transfers :=
  (sameTransfers_schedule s).offerSchedule rfl

theorem State.placePending_transfers (s : State) (n : StreamNo) : (s.placePending n).transfers = s.transfers := by
  unfold State.placePending
  split
  · rfl
  · rw [State.reportPlaced_eq]
    dsimp only
    split <;> rfl

theorem State.cmdDonePlaced_transfers (s : State) (tell : Tell) : (s.cmdDonePlaced tell).transfers = s.transfers := by
  unfold State.cmdDonePlaced
  cases tell with
  | nobody => rfl
  | entry id => exact State.offerSchedule_transfers _
  | drain n =>
    refine (State.settle_transfers _ n).trans ?_
    split
    · exact State.placePending_transfers _ n
    · rfl

theorem State.produceCmdDone_transfers (s : State) (status : Status) (result : List Byte) (tell : Tell) :
    (s.produceCmdDone status result tell).transfers = s.transfers := by
  unfold State.produceCmdDone
  split
  · rfl
  · dsimp only
    split
    · exact State.cmdDonePlaced_transfers _ tell
    · rfl

theorem State.examineCommand_transfers (s : State) : s.examineCommand.transfers = s.transfers := by
  unfold State.examineCommand
  split
  · split
    · rfl
    · exact State.produceCmdDone_transfers _ _ _ _
  · rfl

theorem State.settleStream_transfers (s : State) (n : StreamNo) : (s.settleStream n).transfers = s.transfers :=
  (State.examineCommand_transfers _).trans (s.settle_transfers n)

/-! ### The frame of a report -/

/-- `t` is `s` after reports: events joined the list, and the transfers, the control state and the generators and
trigger lines are as they were. -/
structure State.Reports (s t : State) : Prop where
  events : s.EventsGrow t
  transfers : t.transfers = s.transfers
  control : s.agreesInControl t
  generators : t.timebase.generators = s.timebase.generators
  lines : t.timebase.lines = s.timebase.lines

theorem State.agreesInControl.trans {s t u : State} (h : s.agreesInControl t) (k : t.agreesInControl u) :
    s.agreesInControl u := by
  obtain ⟨h1, h2, h3, h4, h5, h6, h7, h8, h9⟩ := h
  obtain ⟨k1, k2, k3, k4, k5, k6, k7, k8, k9⟩ := k
  exact ⟨k1.trans h1, k2.trans h2, k3.trans h3, k4.trans h4, k5.trans h5, k6.trans h6, k7.trans h7, k8.trans h8, k9.trans h9⟩

theorem State.Touches.control {p : StreamNo → Prop} {s t : State} (h : State.Touches p s t) : s.agreesInControl t :=
  ⟨h.engine, h.pin, h.notifyError, h.mode, h.lead, h.claimChoices, h.faultAddress, h.pending, h.streamLosses⟩

theorem State.finish_control (s : State) : s.agreesInControl s.finish :=
  ⟨s.finish_engine, s.finish_pin, s.finish_notifyError, s.finish_mode,
    by have h := congrArg (fun u : State => u.transfers.lead) s.finish_apartFromGrants; exact h,
    by have h := congrArg (fun u : State => u.claimChoices) s.finish_apartFromGrants; exact h,
    s.finish_faultAddress, s.finish_pending, s.finish_streamLosses⟩

theorem State.Touches.reports {p : StreamNo → Prop} {s t : State} (h : State.Touches p s t) (events : s.EventsGrow t)
    (transfers : t.transfers = s.transfers) : s.Reports t :=
  ⟨events, transfers, h.control, by rw [h.timebase], by rw [h.timebase]⟩

theorem State.Reports.trans {s t u : State} (h : s.Reports t) (k : t.Reports u) : s.Reports u :=
  ⟨h.events.trans k.events, k.transfers.trans h.transfers, h.control.trans k.control,
    k.generators.trans h.generators, k.lines.trans h.lines⟩

theorem State.Reports.settleStream (s : State) (n : StreamNo) : s.Reports (s.settleStream n) :=
  (s.settleStream_touches n).reports ((eventsGrow_kept s).settleStream trivial (.refl s)) (s.settleStream_transfers n)

theorem State.Reports.cmdDonePlaced (s : State) (tell : Tell) : s.Reports (s.cmdDonePlaced tell) :=
  (s.cmdDonePlaced_touches tell).reports ((eventsGrow_kept s).cmdDonePlaced tell (fun _ _ => trivial) (.refl s))
    (s.cmdDonePlaced_transfers tell)

theorem State.Reports.examineCommand (s : State) : s.Reports s.examineCommand :=
  s.examineCommand_touches.reports ((eventsGrow_kept s).examineCommand (.refl s)) s.examineCommand_transfers

theorem State.Reports.offerSchedule (s : State) : s.Reports s.offerSchedule :=
  s.offerSchedule_touches.reports ((eventsGrow_kept s).scheduleOps.offerSchedule (.refl s)) s.offerSchedule_transfers

theorem State.Reports.accept (s : State) (e : Event) : s.Reports (s.accept e) :=
  (s.accept_touches e).reports (.accept s e) rfl

theorem State.Reports.refl (s : State) : s.Reports s :=
  (State.Touches.refl noStream s).reports (.refl s) rfl

theorem State.Reports.lostReports (s : State) (l : List LossClaim) :
    s.Reports { s with timebase := { s.timebase with lostReports := l } } :=
  ⟨.of_eq rfl, rfl, ⟨rfl, rfl, rfl, rfl, rfl, rfl, rfl, rfl, rfl⟩, rfl, rfl⟩

theorem State.Reports.offerLostFuel (k : Nat) (s : State) : s.Reports (offerLostFuel k s) := by
  induction k generalizing s with
  | zero => exact .refl s
  | succ k ih =>
    unfold Machine.offerLostFuel
    split
    · exact .refl s
    · split
      · exact ((State.Reports.lostReports s _).trans (.accept _ _)).trans (ih _)
      · exact .refl s

end Sys2Proof.Machine
end

section
/-! The grants of the Event Holding List (R150): who is served next, and what a grant leaves. -/

namespace Sys2Proof.Machine

theorem State.waitingEvent_stream (s : State) (n : StreamNo) :
    s.waitingEvent (streamProducer n) = (s.stream n).pendingReport.map (fun r => r.event) := by
  have hn : Fin.ofNat 8 n.val = n := Fin.ext (Nat.mod_eq_of_lt n.isLt)
  show ((s.stream (Fin.ofNat 8 n.val)).pendingReport.map fun r => r.event) = _
  rw [hn]

/-- A report that waits is placed: it joins the list, and its stream is told. -/
theorem State.placePending_reports {s : State} {n : StreamNo} {r : PendingReport} (h : (s.stream n).pendingReport = some r) :
    (s.accept r.event).Reports (s.placePending n) := by
  have hevents : (s.accept r.event).EventsGrow (s.placePending n) := by
    refine .of_eq ?_
    unfold State.placePending
    rw [h]
    dsimp only
    rw [State.reportPlaced_eq]
    dsimp only
    split <;> rfl
  refine ⟨hevents, s.placePending_transfers n, (s.placePending_touches n).control, ?_, ?_⟩
  · rw [(s.placePending_touches n).timebase]; rfl
  · rw [(s.placePending_touches n).timebase]; rfl

/-- The state once a grant to producer `p` has ended in `s`. -/
def State.servedLast (s : State) (p : Producer) : State := { s with events := { s.events with lastServed := p } }

/-- What a grant to `p` makes of `s`: the event that waits joins the list and what follows is offered; where nothing
waits, only what follows. -/
def State.Grant (s : State) (p : Producer) : Prop :=
  (∃ ev u, s.waitingEvent p = some ev ∧ (s.accept ev).Reports u ∧ s.serve p = u.servedLast p)
    ∨ ((s.command.Held → s.waits p = false) ∧ ∃ u, s.Reports u ∧ s.serve p = u.servedLast p)

theorem State.grant_command (s : State) : s.Grant commandProducer := by
  cases he : s.command.slot with
  | none =>
    refine .inr ⟨fun _ => by rw [State.waits_commandProducer, he]; rfl, s, .refl s, ?_⟩
    simp [State.serve, commandProducer, he, State.servedLast]
  | some e =>
    cases hc : s.command.inProgress with
    | none =>
      refine .inr ⟨fun h => ?_, s, .refl s, by simp [State.serve, commandProducer, he, hc, State.servedLast]⟩
      have hprogress := h.slot (by rw [he]; rfl)
      rw [hc] at hprogress
      cases hprogress
    | some c =>
      exact .inl ⟨e, (s.accept e).cmdDonePlaced c.tell, he, .cmdDonePlaced _ _,
        by simp [State.serve, commandProducer, he, hc, State.servedLast]⟩

theorem State.grant_schedule (s : State) : s.Grant scheduleProducer := by
  cases he : s.offerableClosing with
  | none =>
    refine .inr ⟨fun _ => by rw [State.waits_scheduleProducer, he]; rfl, s, .refl s, ?_⟩
    simp [State.serve, scheduleProducer, he, State.servedLast]
  | some x =>
    have hplaced : (s.accept x.2).Reports (s.placeClosing x.1 x.2) :=
      ⟨.of_eq rfl, rfl, ⟨rfl, rfl, rfl, rfl, rfl, rfl, rfl, rfl, rfl⟩, rfl, rfl⟩
    refine .inl ⟨x.2, (s.placeClosing x.1 x.2).offerSchedule.examineCommand, ?_,
      (hplaced.trans (.offerSchedule _)).trans (.examineCommand _),
      by simp [State.serve, scheduleProducer, he, State.servedLast]⟩
    show s.offerableClosing.map (fun x => x.2) = _
    rw [he]
    rfl

theorem State.grant_timebase (s : State) : s.Grant timebaseProducer := by
  cases hl : s.timebase.lostReports with
  | nil =>
    refine .inr ⟨fun _ => by rw [State.waits_timebaseProducer, hl]; rfl, s, .refl s, ?_⟩
    simp [State.serve, timebaseProducer, hl, State.servedLast]
  | cons r rest =>
    let e : Event := .referenceLost r.generator r.position
    let u : State := ({ s with timebase := { s.timebase with lostReports := rest } } : State).accept e
    have hreports : (s.accept e).Reports u.offerLost :=
      (State.Reports.lostReports (s.accept e) rest).trans (.offerLostFuel 4 u)
    refine .inl ⟨e, u.offerLost, ?_, hreports, by simp [State.serve, timebaseProducer, hl, State.servedLast, u, e]⟩
    show s.timebase.lostReports.head?.map (fun r => Event.referenceLost r.generator r.position) = _
    rw [hl]
    rfl

theorem State.grant_stream (s : State) (n : StreamNo) : s.Grant (streamProducer n) := by
  have hn : Fin.ofNat 8 n.val = n := Fin.ext (Nat.mod_eq_of_lt n.isLt)
  have hserve : s.serve (streamProducer n) = ((s.placePending n).settleStream n).servedLast (streamProducer n) := by
    show ((s.placePending (Fin.ofNat 8 n.val)).settleStream (Fin.ofNat 8 n.val)).servedLast (streamProducer n) = _
    rw [hn]
  cases hr : (s.stream n).pendingReport with
  | none =>
    have hplace : s.placePending n = s := by rw [State.placePending, hr]
    refine .inr ⟨fun _ => ?_, _, .settleStream s n, by rw [hserve, hplace]⟩
    rw [State.waits_streamProducer]
    exact Stream.reportWaits_none hr
  | some r =>
    refine .inl ⟨r.event, _, ?_, (State.placePending_reports hr).trans (.settleStream _ n), hserve⟩
    rw [State.waitingEvent_stream, hr]
    rfl

theorem State.grant (s : State) (p : Producer) : s.Grant p :=
  producer_cases s.grant_command s.grant_schedule s.grant_timebase s.grant_stream p

/-- A producer that waits and is served has its event next in the list. -/
theorem State.serve_places {s : State} {p : Producer} (hheld : s.command.Held) (hp : s.waits p = true) :
    ∃ ev, s.waitingEvent p = some ev ∧ s.heldEvents ++ [ev] <+: (s.serve p).heldEvents
      ∧ (s.serve p).events.lastServed = p := by
  rcases s.grant p with ⟨ev, u, hev, hu, hserve⟩ | ⟨hquiet, _⟩
  · refine ⟨ev, hev, ?_, by rw [hserve]; rfl⟩
    have hgrow := hu.events.heldEvents
    rw [hserve]
    simpa [State.heldEvents, State.accept, State.servedLast] using hgrow
  · exact absurd (hquiet hheld) (by rw [hp]; decide)

theorem producers_getElem (i : Nat) (h : i < producers.length) : producers[i] = (⟨i, h⟩ : Producer) := by
  revert h
  have hall : ∀ j : Producer, ∀ h : j.val < producers.length, producers[j.val] = j := by decide
  exact fun h => hall ⟨i, h⟩ h

/-- Of the waiting producers the one at the least distance behind the last served is next. -/
theorem State.nextWaiting_least {s : State} {p : Producer} (h : s.nextWaiting = some p) :
    s.waits p = true ∧ ∀ q, s.waits q = true → (p - s.events.lastServed - 1).val ≤ (q - s.events.lastServed - 1).val := by
  have hat (i : Nat) (hi : i < (producers.map fun k => s.events.lastServed + 1 + k).length) :
      (producers.map fun k => s.events.lastServed + 1 + k)[i] = s.events.lastServed + 1 + ⟨i, by rw [List.length_map] at hi; exact hi⟩ := by
    rw [List.getElem_map, producers_getElem]
  obtain ⟨hwaits, i, hi, hp, hbefore⟩ := List.find?_eq_some_iff_getElem.1 h
  rw [hat] at hp
  have hdistance : p - s.events.lastServed - 1 = (⟨i, by rw [List.length_map] at hi; exact hi⟩ : Producer) := by
    rw [← hp]
    abel
  refine ⟨hwaits, fun q hq => ?_⟩
  by_contra hlt
  rw [hdistance] at hlt
  have hne := hbefore (q - s.events.lastServed - 1).val (Nat.lt_of_not_le hlt)
  rw [hat, show s.events.lastServed + 1 + (q - s.events.lastServed - 1) = q by abel, hq] at hne
  cases hne

/-- The first waiting producer of the circle after the last served. -/
theorem State.nextWaiting_iff (s : State) (p : Producer) :
    s.nextWaiting = some p ↔ s.waits p = true
      ∧ ∀ q, s.waits q = true → (p - s.events.lastServed - 1).val ≤ (q - s.events.lastServed - 1).val := by
  refine ⟨State.nextWaiting_least, fun ⟨hwaits, hleast⟩ => ?_⟩
  cases hnext : s.nextWaiting with
  | none => exact absurd (State.nextWaiting_eq_none hnext p) (by rw [hwaits]; decide)
  | some q =>
    obtain ⟨hq, hqleast⟩ := State.nextWaiting_least hnext
    have hdistance := Fin.ext (Nat.le_antisymm (hqleast p hwaits) (hleast q hq))
    exact congrArg some (sub_left_injective (sub_left_injective hdistance))

/-! ### All the grants of a step -/

/-- `t` is `s` after grants of the Event Holding List: reports as `State.Reports` says, and another last served. -/
def State.PlacesGranted (s t : State) : Prop := ∃ u last, s.Reports u ∧ t = u.servedLast last

theorem State.Reports.servedLast {s t : State} (h : s.Reports t) (p : Producer) :
    (s.servedLast p).Reports (t.servedLast p) := by
  obtain ⟨⟨more, hm⟩, htransfers, hcontrol, hgenerators, hlines⟩ := h
  refine ⟨⟨more, ?_⟩, htransfers, hcontrol, hgenerators, hlines⟩
  show { t.events with lastServed := p } = _
  rw [hm]
  rfl

theorem State.PlacesGranted.trans {s t u : State} (h : s.PlacesGranted t) (k : t.PlacesGranted u) : s.PlacesGranted u := by
  obtain ⟨v, last, hv, rfl⟩ := h
  obtain ⟨w, last', hw, rfl⟩ := k
  have hback : (v.servedLast last).Reports w → (v.Reports (w.servedLast v.events.lastServed)) := fun h =>
    h.servedLast v.events.lastServed
  exact ⟨_, last', hv.trans (hback hw), rfl⟩

theorem State.serve_grants (s : State) (p : Producer) : s.PlacesGranted (s.serve p) := by
  rcases s.grant p with ⟨ev, u, -, hu, hserve⟩ | ⟨-, u, hu, hserve⟩
  · exact ⟨u, p, (State.Reports.accept s ev).trans hu, hserve⟩
  · exact ⟨u, p, hu, hserve⟩

theorem State.PlacesGranted.refl (s : State) : s.PlacesGranted s := ⟨s, s.events.lastServed, .refl s, rfl⟩

theorem grantPlacesFuel_grants (k : Nat) (s : State) : s.PlacesGranted (grantPlacesFuel k s) := by
  induction k generalizing s with
  | zero => exact .refl s
  | succ k ih =>
    unfold grantPlacesFuel
    split
    · split
      · exact .refl s
      · exact (s.serve_grants _).trans (ih _)
    · exact .refl s

theorem State.PlacesGranted.heldEvents {s t : State} (h : s.PlacesGranted t) : s.heldEvents <+: t.heldEvents := by
  obtain ⟨u, last, hu, rfl⟩ := h
  exact hu.events.heldEvents

theorem State.PlacesGranted.transfers {s t : State} (h : s.PlacesGranted t) : t.transfers = s.transfers := by
  obtain ⟨u, last, hu, rfl⟩ := h
  exact hu.transfers

theorem State.PlacesGranted.generators {s t : State} (h : s.PlacesGranted t) :
    t.timebase.generators = s.timebase.generators := by
  obtain ⟨u, last, hu, rfl⟩ := h
  exact hu.generators

theorem State.PlacesGranted.lines {s t : State} (h : s.PlacesGranted t) : t.timebase.lines = s.timebase.lines := by
  obtain ⟨u, last, hu, rfl⟩ := h
  exact hu.lines

theorem State.PlacesGranted.control {s t : State} (h : s.PlacesGranted t) : s.agreesInControl t := by
  obtain ⟨u, last, hu, rfl⟩ := h
  exact hu.control

/-- Without a producer that waits nothing is granted. -/
theorem grantPlacesFuel_quiet (k : Nat) {s : State} (h : ∀ p, s.waits p = false) : grantPlacesFuel k s = s := by
  have hnone : s.nextWaiting = none := by
    rw [State.nextWaiting, List.find?_eq_none]
    exact fun p _ => by rw [h p]; decide
  cases k with
  | zero => rfl
  | succ k =>
    unfold grantPlacesFuel
    rw [hnone]
    split <;> rfl

/-- The first grant serves the producer that is next, when a place is free. -/
theorem grantPlacesFuel_first (k : Nat) {s : State} {p : Producer} (hheld : s.command.Held) (hfree : s.placeFree = true)
    (hp : s.nextWaiting = some p) {ev : Event} (hev : s.waitingEvent p = some ev) :
    s.heldEvents ++ [ev] <+: (grantPlacesFuel (k + 1) s).heldEvents := by
  obtain ⟨ev', hev', hplaced, -⟩ := State.serve_places hheld (State.nextWaiting_least hp).1
  obtain rfl : ev' = ev := Option.some.inj (hev'.symm.trans hev)
  rw [grantPlacesFuel, if_pos hfree, hp]
  exact hplaced.trans (grantPlacesFuel_grants k _).heldEvents

/-! ### Posting and moderation (R156, R161 to R163) -/

/-- The Event Unit once its write of `k` entries has been posted and moderated. -/
theorem EventUnit.post_eq (e : EventUnit) (k : Nat) :
    let counted := (((e.holding.map fun h => h.event).take k).filter Event.isCounted).length
    let signals := counted ≠ 0 ∧ e.threshold ≤ e.count + counted
    e.post k = { e with
      holding := e.holding.drop k
      inFlight := e.inFlight - k
      posted := e.posted + k
      pending := e.pending || decide signals
      count := if signals then 0 else e.count + counted
      timerRunning := !decide signals && (e.timerRunning || counted != 0 && e.count == 0 && e.holdoff != 0) } := by
  intro counted signals
  have hcounted : (e.holding.take k).countP (fun h : HeldEvent => h.event.isCounted) = counted := by
    show _ = List.length (List.filter _ (List.take k (List.map _ _)))
    rw [← List.map_take, List.filter_map, List.length_map, List.countP_eq_length_filter]
    rfl
  unfold EventUnit.post EventUnit.moderate
  rw [hcounted]
  by_cases hzero : counted = 0
  · have hs : ¬signals := fun h => h.1 hzero
    simp [hzero, hs]
  · by_cases hthreshold : e.threshold ≤ e.count + counted
    · have hs : signals := ⟨hzero, hthreshold⟩
      simp [hzero, hs, hthreshold, EventUnit.signal]
    · have hs : ¬signals := fun h => hthreshold h.2
      have hne : (counted != 0) = true := bne_iff_ne.2 hzero
      simp [hzero, hs, hthreshold, hne]

/-- The state in which the completion of an event write of `k` entries leaves the blocks before the grants. -/
def State.posted (s : State) (e : TransferId) (k : Nat) : State :=
  { s.putTransfer e none with events := s.events.post k }

theorem exec_eventWriteComplete {s : State} {e : TransferId} {t : Transfer} {k : Nat} (harrives : s.arrives e t = true)
    (hrequester : t.requester = .eventWrite) (hitem : t.item = .entries k) :
    exec (.eventWriteComplete e) s = .next (grantPlacesFuel 8 (s.posted e k)).finish := by
  have hcount : t.entryCount = k := by rw [Transfer.entryCount, hitem]
  refine congrArg Host.Outcome.next ?_
  refine (State.complete_arrives s e t _ _ _ harrives (by rw [Transfer.isOf, hrequester]; rfl)).trans ?_
  rw [hcount]
  rfl

theorem State.posted_heldEvents (s : State) (e : TransferId) (k : Nat) : (s.posted e k).heldEvents = s.heldEvents.drop k := by
  show ((s.events.post k).holding.map fun h => h.event) = _
  rw [EventUnit.post_eq]
  exact List.map_drop

theorem State.posted_lastServed (s : State) (e : TransferId) (k : Nat) :
    (s.posted e k).events.lastServed = s.events.lastServed := by
  show (s.events.post k).lastServed = _
  rw [EventUnit.post_eq]

theorem State.posted_nextWaiting (s : State) (e : TransferId) (k : Nat) : (s.posted e k).nextWaiting = s.nextWaiting := by
  rw [State.nextWaiting, State.posted_lastServed]
  rfl

/-- The closing grants of a step leave the Event Unit's posting, release and moderation as they are. -/
theorem State.finish_moderation (s : State) : s.finish.events.posted = s.events.posted
    ∧ s.finish.events.releaseIndex = s.events.releaseIndex ∧ s.finish.events.pending = s.events.pending
    ∧ s.finish.events.count = s.events.count ∧ s.finish.events.timerRunning = s.events.timerRunning
    ∧ s.finish.events.lastServed = s.events.lastServed := by
  obtain ⟨-, -, -, h | h⟩ := s.finish_grantsTo
  · rw [h]
    exact ⟨rfl, rfl, rfl, rfl, rfl, rfl⟩
  · rw [h]
    exact ⟨rfl, rfl, rfl, rfl, rfl, rfl⟩

theorem State.PlacesGranted.moderation {s t : State} (h : s.PlacesGranted t) : t.events.posted = s.events.posted
    ∧ t.events.releaseIndex = s.events.releaseIndex ∧ t.events.pending = s.events.pending
    ∧ t.events.count = s.events.count ∧ t.events.timerRunning = s.events.timerRunning := by
  obtain ⟨u, last, ⟨⟨more, hm⟩, -⟩, rfl⟩ := h
  show u.events.posted = _ ∧ u.events.releaseIndex = _ ∧ u.events.pending = _ ∧ u.events.count = _
    ∧ u.events.timerRunning = _
  rw [hm]
  exact ⟨rfl, rfl, rfl, rfl, rfl⟩

end Sys2Proof.Machine

open Sys2Proof Sys2Proof.Machine

/-- Settles O50: what is posted, the grants behind it, and the timer's expiry. -/
theorem eventWritePosts : Obligations.EventWritePosts := by
  refine ⟨fun s e t k harrives hrequester hitem => ?_, fun s p => ⟨s.nextWaiting_iff p, fun hc hp => ?_⟩, fun s => ?_⟩
  · intro v quiet counted signals
    have hquiet : (fun x => !quiet x) = Event.isCounted := by
      funext x
      cases x <;> rfl
    have hpost := EventUnit.post_eq v k
    have hgrants := grantPlacesFuel_grants 8 (s.posted e k)
    obtain ⟨hposted, hrelease, hpending, hcount, htimer, hlast⟩ := (grantPlacesFuel 8 (s.posted e k)).finish_moderation
    obtain ⟨gposted, grelease, gpending, gcount, gtimer⟩ := hgrants.moderation
    have hheld := (grantPlacesFuel 8 (s.posted e k)).finish_heldEvents
    have hcounted : counted = (((v.holding.map fun h => h.event).take k).filter Event.isCounted).length := by
      rw [← hquiet]
      rfl
    refine ⟨_, exec_eventWriteComplete harrives hrequester hitem, ?_, fun hnone => ?_, fun hc hroom p hp ev hev => ?_,
      ?_, ?_, ?_, ?_, ?_, ?_, ?_, fun e' r hne hr => ?_, ?_⟩
    · rw [hheld, ← s.posted_heldEvents e k]
      exact hgrants.heldEvents
    · have hsame : grantPlacesFuel 8 (s.posted e k) = s.posted e k := grantPlacesFuel_quiet 8 hnone
      rw [hheld, hlast, hsame]
      exact ⟨s.posted_heldEvents e k, s.posted_lastServed e k⟩
    · rw [hheld, ← s.posted_heldEvents e k]
      refine grantPlacesFuel_first (s := s.posted e k) 7 ((State.commandConsistent_iff s).1 hc).1 ?_ ((s.posted_nextWaiting e k).trans hp) hev
      rw [State.placeFree_iff]
      rw [← s.posted_heldEvents e k, State.heldEvents, List.length_map] at hroom
      exact hroom
    · rw [hposted, gposted]
      have h := congrArg EventUnit.posted hpost
      exact h
    · rw [hrelease, grelease]
      have h := congrArg EventUnit.releaseIndex hpost
      exact h
    · rw [hpending, gpending]
      simp only [signals, hcounted]
      have h := congrArg EventUnit.pending hpost
      exact h
    · rw [hcount, gcount]
      simp only [signals, hcounted]
      have h := congrArg EventUnit.count hpost
      exact h
    · rw [htimer, gtimer]
      simp only [signals, hcounted]
      have h := congrArg EventUnit.timerRunning hpost
      exact h
    · rw [State.finish_timebase]
      exact hgrants.generators
    · rw [State.finish_timebase]
      exact hgrants.lines
    · refine (grantPlacesFuel 8 (s.posted e k)).finish_grantsTo.2.1 e' r ?_
      rw [State.transfer, hgrants.transfers]
      exact (State.transfer_putTransfer_of_ne s none hne.symm).trans hr
    · exact State.agreesInControl.trans hgrants.control (State.finish_control _)
  · exact State.serve_places ((State.commandConsistent_iff s).1 hc).1 hp
  · have hexec : exec .holdoffTimerExpiry s = execHoldoffTimerExpiry s := rfl
    refine ⟨fun hactive htimer => ?_, fun hnone => ?_⟩
    · exact hexec.trans (congrArg Host.Outcome.next (if_pos (Bool.and_eq_true_iff.2 ⟨hactive, htimer⟩)))
    · refine hexec.trans (congrArg Host.Outcome.next (if_neg fun h => ?_))
      obtain ⟨hactive, htimer⟩ := Bool.and_eq_true_iff.1 h
      rcases hnone with hnone | hnone
      · exact Bool.false_ne_true (hnone.symm.trans hactive)
      · exact Bool.false_ne_true (hnone.symm.trans htimer)

end

section
/-! What a row leaves beyond the streams it is about, and what the closing grants leave of a stream. -/

namespace Sys2Proof.Machine

/-! ### The closing grants -/

/-- The grants change of a context its staged records' fetch progress, its FIFO and its record request alone. -/
theorem Stream.grantsTo.body {c d : Stream} (h : c.grantsTo d) :
    d = { c with staging := d.staging, fifo := d.fifo, fetchSplit := d.fetchSplit, readPresented := d.readPresented } := by
  have hapart := h.1
  cases c
  cases d
  simp only [Stream.apartFromGrants, Stream.mk.injEq] at hapart ⊢
  tauto

theorem State.finish_body (s : State) (n : StreamNo) : s.finish.stream n = { s.stream n with
    staging := (s.finish.stream n).staging
    fifo := (s.finish.stream n).fifo
    fetchSplit := (s.finish.stream n).fetchSplit
    readPresented := (s.finish.stream n).readPresented } :=
  (s.finish_grantsTo.2.2.1 n).body

/-- A context outside a run that takes no records, or has none, is left by the grants as it is, but for a record read that it
presents. -/
theorem still_keptByGrants {c : Stream} (hrunning : c.isRunning = false) (hstill : c.isTaking = false ∨ c.staging = []) (n : StreamNo) :
    State.KeptByGrants (fun s => ∃ b, s.stream n = { c with readPresented := b }) := by
  have hprefetch (b : Bool) : ({ c with readPresented := b } : Stream).prefetchGaps = { c with readPresented := b } := by
    rcases hstill with hc | hs
    · rw [Stream.prefetchGaps, if_neg]
      simpa [Stream.isTaking, Stream.isRunning] using fun _ => hc
    · unfold Stream.prefetchGaps
      rw [show ({ c with readPresented := b } : Stream).staging = [] from hs]
      exact ite_self _
  have hcurrent (htaking : c.isTaking = true) : c.current = none := by
    rcases hstill with hc | hs
    · rw [hc] at htaking
      cases htaking
    · rw [Stream.current, hs]
      rfl
  have put (s : State) (m : StreamNo) (d : Stream) (h : ∃ b, s.stream n = { c with readPresented := b })
      (hd : m = n → ∃ b, d = { c with readPresented := b }) : ∃ b, (s.putStream m d).stream n = { c with readPresented := b } := by
    rcases eq_or_ne m n with rfl | hne
    · rw [State.stream_putStream]
      exact hd rfl
    · rw [State.stream_putStream_of_ne s d hne]
      exact h
  constructor
  case prefetch =>
    refine fun s m h => put s m _ h ?_
    rintro rfl
    obtain ⟨b, hb⟩ := h
    refine ⟨b, ?_⟩
    rw [hb, hprefetch]
  case presents =>
    refine fun s m h _ => put s m _ h ?_
    rintro rfl
    obtain ⟨b, hb⟩ := h
    exact ⟨true, by rw [hb]⟩
  case phase => exact fun _ _ h => h
  case issues => exact fun _ _ _ h _ _ => h
  case posts => exact fun _ h => h
  case reads =>
    refine fun s e m r h _ hwants _ => put (s.putTransfer e _) m _ h ?_
    rintro rfl
    obtain ⟨b, hb⟩ := h
    simp only [State.wantsRead, hb, Bool.and_eq_true] at hwants
    have hnone : ({ c with readPresented := b } : Stream).current = none := hcurrent hwants.1.1.1.2
    rw [hnone] at hwants
    exact absurd hwants.1.2 (by decide)
  case writes =>
    refine fun s e m t ring pass offset h _ hwants _ _ => put (s.putTransfer e _) m _ h ?_
    rintro rfl
    obtain ⟨b, hb⟩ := h
    simp only [State.wantsWrite, hb, Bool.and_eq_true] at hwants
    exact absurd (show c.isRunning = true from hwants.1.1.2) (by rw [hrunning]; decide)
  case records =>
    refine fun s e m h _ _ => put (s.putTransfer e _) m _ h ?_
    rintro rfl
    obtain ⟨b, hb⟩ := h
    exact ⟨false, by rw [hb]⟩
  case pointers => exact fun _ _ _ _ h => h

theorem State.finish_still {s : State} {n : StreamNo} (hrunning : (s.stream n).isRunning = false)
    (hstill : (s.stream n).isTaking = false ∨ (s.stream n).staging = []) :
    ∃ b, s.finish.stream n = { s.stream n with readPresented := b } :=
  (still_keptByGrants hrunning hstill n).finish ⟨_, rfl⟩

theorem Stream.isRunning_of_not_taking {c : Stream} (h : c.isTaking = false) : c.isRunning = false := by
  cases hr : c.isRunning with
  | false => rfl
  | true =>
    simp only [Stream.isRunning, Bool.or_eq_true, beq_iff_eq] at hr
    rcases hr with (hs | hs) | hs <;> simp [Stream.isTaking, hs] at h

theorem State.finish_halted {s : State} {n : StreamNo} (h : (s.stream n).isTaking = false) :
    ∃ b, s.finish.stream n = { s.stream n with readPresented := b } :=
  State.finish_still (Stream.isRunning_of_not_taking h) (.inl h)

/-! ### Beyond the streams of a row -/

/-- The transfers of `t` are those of `s`, outstanding data reads of streams in `halted` perhaps marked for discard. -/
def State.MarksReads (halted : StreamNo → Prop) (s t : State) : Prop :=
  ∀ e r, s.transfer e = some r → t.transfer e = some r
    ∨ t.transfer e = some { r with discard := true } ∧ ∃ n, halted n ∧ r.requester = .streamData n ∧ r.isWrite = false

/-- `t` agrees with `s` beyond the streams and lanes of `touched`, with no transfer freed and before the closing grants. -/
structure State.Beyond (touched halted : StreamNo → Prop) (s t : State) : Prop where
  stream : ∀ m, ¬touched m → t.stream m = s.stream m
  port : ∀ m, ¬touched m → t.port m = s.port m
  transfers : State.MarksReads halted s t
  events : s.EventsGrow t

variable {touched halted : StreamNo → Prop} {s t u : State}

theorem State.MarksReads.refl (halted : StreamNo → Prop) (s : State) : State.MarksReads halted s s := fun _ _ h => .inl h

theorem State.MarksReads.of_eq (h : t.transfers = s.transfers) : State.MarksReads halted s t := fun e r hr =>
  .inl (by rw [State.transfer, h]; exact hr)

theorem State.MarksReads.trans (h : State.MarksReads halted s t) (k : State.MarksReads halted t u) :
    State.MarksReads halted s u := fun e r hr => by
  rcases h e r hr with ht | ⟨ht, hn⟩
  · exact k e r ht
  · rcases k e _ ht with hu | ⟨hu, -⟩
    · exact .inr ⟨hu, hn⟩
    · exact .inr ⟨hu, hn⟩

theorem Transfer.discarded_cases (n : StreamNo) (r : Transfer) : r.discarded n = r
    ∨ r.discarded n = { r with discard := true } ∧ r.requester = .streamData n ∧ r.isWrite = false := by
  unfold Transfer.discarded
  split
  · rename_i h
    rw [Bool.and_eq_true, beq_iff_eq, Bool.not_eq_true'] at h
    exact .inr ⟨rfl, h⟩
  · exact .inl rfl

theorem State.MarksReads.discardReads {n : StreamNo} (hn : halted n) : State.MarksReads halted s (s.discardReads n) :=
  fun e r hr => by
    rw [State.discardReads_transfer, hr]
    rcases Transfer.discarded_cases n r with h | ⟨h, hr⟩
    · exact .inl (congrArg some h)
    · exact .inr ⟨congrArg some h, n, hn, hr⟩

theorem State.Beyond.refl (touched halted : StreamNo → Prop) (s : State) : State.Beyond touched halted s s :=
  ⟨fun _ _ => rfl, fun _ _ => rfl, .refl _ s, .refl s⟩

theorem State.Beyond.trans (h : State.Beyond touched halted s t) (k : State.Beyond touched halted t u) :
    State.Beyond touched halted s u :=
  ⟨fun m hm => (k.stream m hm).trans (h.stream m hm), fun m hm => (k.port m hm).trans (h.port m hm),
    h.transfers.trans k.transfers, h.events.trans k.events⟩

/-- An operation that reports leaves the streams it does not touch and every transfer. -/
theorem State.Touches.beyond (h : State.Touches touched s t) (events : s.EventsGrow t) (transfers : t.transfers = s.transfers) :
    State.Beyond touched halted s t :=
  ⟨h.stream, h.port, .of_eq transfers, events⟩

/-- The operations of the streams of `on`, and of the blocks beside them, keep the rest. -/
theorem beyond_kept (on : StreamNo → Prop) (s : State) : State.Kept on (State.Beyond on on s) := by
  have put (t : State) (n : StreamNo) (d : Stream) (h : State.Beyond on on s t) (hn : on n) :
      State.Beyond on on s (t.putStream n d) :=
    ⟨fun m hm => (State.stream_putStream_of_ne t d (by rintro rfl; exact hm hn)).trans (h.stream m hm), h.port,
      h.transfers, h.events⟩
  constructor
  case accept => exact fun t e h _ => ⟨h.stream, h.port, h.transfers, h.events.trans (.accept t e)⟩
  case context => exact fun t n d h hn _ => put t n d h hn
  case close => exact fun t n h hn _ => put t n _ h hn
  case port =>
    exact fun t n p h hn => ⟨h.stream, fun m hm =>
      (State.port_putPort_of_ne t p (by rintro rfl; exact hm hn)).trans (h.port m hm), h.transfers, h.events⟩
  case discard =>
    refine fun t n h hn => ⟨fun m hm => ?_, fun m hm => ?_, h.transfers.trans (.discardReads hn), ?_⟩
    · rw [State.stream, State.discardReads_streams]
      exact h.stream m hm
    · rw [State.discardReads_eq]
      exact h.port m hm
    · exact h.events.trans (.of_eq (t.discardReads_events n))
  case command => exact fun _ _ h _ => ⟨h.stream, h.port, h.transfers, h.events⟩
  case schedule => exact fun _ _ h _ => ⟨h.stream, h.port, h.transfers, h.events⟩

theorem State.EventsGrow.agrees (h : s.EventsGrow t) : s.events.holding.map (fun h => h.event) <+: t.events.holding.map (fun h => h.event)
    ∧ t.events.posted = s.events.posted ∧ t.events.releaseIndex = s.events.releaseIndex
    ∧ t.events.pending = s.events.pending ∧ t.events.count = s.events.count
    ∧ t.events.timerRunning = s.events.timerRunning := by
  refine ⟨h.heldEvents, ?_⟩
  obtain ⟨more, hm⟩ := h
  rw [hm]
  exact ⟨rfl, rfl, rfl, rfl, rfl⟩

/-- `v` is `s` in the streams, their lanes and the events, and in every transfer but the one that `freed` names. -/
structure State.SameBut (freed : Option TransferId) (s v : State) : Prop where
  streams : v.streams = s.streams
  ports : v.ports = s.ports
  events : v.events = s.events
  transfers : ∀ e r, freed ≠ some e → s.transfer e = some r → v.transfer e = some r

theorem State.SameBut.refl (freed : Option TransferId) (s : State) : s.SameBut freed s := ⟨rfl, rfl, rfl, fun _ _ _ h => h⟩

theorem State.SameBut.freed (s : State) (e : TransferId) : s.SameBut (some e) (s.putTransfer e none) :=
  ⟨rfl, rfl, rfl, fun _ _ hne hr => (State.transfer_putTransfer_of_ne s none fun k => hne (congrArg some k)).trans hr⟩

theorem State.SameBut.taken (s : State) (e : TransferId) (i : Instr) (seq : BitVec 16) (index : Nat) :
    s.SameBut (some e) (s.taken e i seq index) :=
  ⟨rfl, rfl, rfl, (State.SameBut.freed s e).transfers⟩

/-- The closing grants keep the agreement. -/
theorem State.Beyond.finish {freed : Option TransferId} {v : State} (hv : s.SameBut freed v)
    (h : State.Beyond touched halted v t) : s.agreesBeyond t.finish freed touched halted := by
  obtain ⟨-, htransfers, hstreams, -⟩ := t.finish_grantsTo
  obtain ⟨gheld, gposted, grelease, gpending, gcount, gtimer⟩ := h.events.agrees
  rw [hv.events] at gheld gposted grelease gpending gcount gtimer
  obtain ⟨fposted, frelease, fpending, fcount, ftimer, -⟩ := t.finish_moderation
  refine ⟨fun n hn => ⟨?_, ?_⟩, fun e r hne hr => ?_, ?_, fposted.trans gposted, frelease.trans grelease,
    fpending.trans gpending, fcount.trans gcount, ftimer.trans gtimer⟩
  · have hsame : t.stream n = s.stream n := (h.stream n hn).trans (by rw [State.stream, hv.streams]; rfl)
    rw [← hsame]
    exact hstreams n
  · rw [State.port, State.finish_ports]
    exact (h.port n hn).trans (by rw [State.port, hv.ports]; rfl)
  · exact (h.transfers e r (hv.transfers e r hne hr)).imp (htransfers e _) fun k => ⟨htransfers e _ k.1, k.2⟩
  · show _ <+: t.finish.heldEvents
    rw [t.finish_heldEvents]
    exact gheld

/-! ### The reads of a stream that halts (R66) -/

/-- Every outstanding data read of stream `n` is marked for discard. -/
def State.AllMarked (s : State) (n : StreamNo) : Prop :=
  ∀ e r, s.transfer e = some r → r.requester = .streamData n → r.isWrite = false → r.discard = true

theorem State.readsMarked_allMarked (hd : (s.stream n).direction = .output) : (s.readsMarked n).AllMarked n := by
  intro e r hr hrequester hwrite
  rw [State.readsMarked_transfer, if_pos hd] at hr
  obtain ⟨r', -, rfl⟩ := Option.map_eq_some_iff.1 hr
  rw [Transfer.discarded_requester] at hrequester
  rcases Transfer.discarded_cases n r' with h | ⟨h, -⟩
  · rw [h] at hwrite
    simp [Transfer.discarded, hrequester, hwrite]
  · rw [h]

/-- What was marked when the stream halted stands marked at the end of the step. -/
theorem State.readsDiscarded_of {n : StreamNo} {e : Option TransferId} {v : State}
    (hbefore : ∀ e' r, e ≠ some e' → s.transfer e' = some r → v.transfer e' = some r ∨ v.transfer e' = some { r with discard := true })
    (hmarked : (s.stream n).direction = .output → v.AllMarked n)
    (hafter : State.MarksReads halted v t) : s.readsDiscarded t.finish e n := by
  intro hd e' r hne hr hrequester hwrite
  have hv : v.transfer e' = some { r with discard := true } := by
    rcases hbefore e' r hne hr with hv | hv
    · have := hmarked hd e' r hv hrequester hwrite
      rw [hv, ← this]
    · exact hv
  refine t.finish_grantsTo.2.1 e' _ ?_
  rcases hafter e' _ hv with ht | ⟨ht, -⟩
  · exact ht
  · exact ht

end Sys2Proof.Machine
end

section
/-! The tick of a generator, as one of its streams meets it: what the claims ahead of it and the other streams' ticks leave
of that stream, of the Timebase Unit and of the entries' fire positions. -/

namespace Sys2Proof.Machine

/-! ### Examining a stream that does not stop -/

/-- An examination of a stream that neither stops nor is CLOSED only reports, and its lane stays as it is. -/
theorem State.settle_open {s : State} {n : StreamNo} (hs : (s.stream n).state ≠ .stopping) (hc : (s.stream n).state ≠ .closed) :
    (s.stream n).Settles ((s.settle n).stream n) ∧ (s.settle n).port n = s.port n := by
  have K : State.KeptByReports n (fun t => ((s.stream n).Settles (t.stream n) ∧ t.port n = s.port n)
      ∧ (t.stream n).state ≠ .stopping ∧ (t.stream n).state ≠ .closed) := by
    constructor
    case accept => exact fun _ _ h _ => h
    case stream =>
      intro t d ⟨⟨hsettles, hport⟩, hstopping, hclosed⟩ hd
      rw [State.stream_putStream]
      refine ⟨⟨hsettles.trans hd, hport⟩, ?_⟩
      rcases hd.links with ⟨hstate, -⟩ | ⟨hstate, -⟩
      · rw [hstate]
        exact ⟨hstopping, hclosed⟩
      · rw [hstate]
        exact ⟨nofun, nofun⟩
    case close =>
      intro t ⟨_, hstopping, _⟩ hends
      simp only [State.stoppingEnds, Bool.and_eq_true, beq_iff_eq] at hends
      exact absurd hends.1.1 hstopping
    case quiet => exact fun t ⟨_, _, hclosed⟩ h => absurd h hclosed
    case arrived => exact fun _ h => h
    case hand =>
      intro t r h _
      rw [State.handRemoval_frame]
      exact h
    case answer =>
      intro t id h _
      have htouch := t.answerEntry_touches id n
      have hstream := htouch.stream n (fun k => k)
      have hport := htouch.port n (fun k => k)
      rw [hstream, hport]
      exact h
  exact (K.settle ⟨⟨.refl _, rfl⟩, hs, hc⟩).1

theorem State.settleStream_open {s : State} {n : StreamNo} (hs : (s.stream n).state ≠ .stopping)
    (hc : (s.stream n).state ≠ .closed) :
    (s.stream n).Settles ((s.settleStream n).stream n) ∧ (s.settleStream n).port n = s.port n := by
  obtain ⟨hsettles, hport⟩ := State.settle_open hs hc
  have htouch := (s.settle n).examineCommand_touches
  exact ⟨(htouch.stream n fun k => k).symm ▸ hsettles, (htouch.port n fun k => k).trans hport⟩

/-! ### The entries' fire positions -/

/-- The entry is that one in its id and in what its creation and its trigger gave it. -/
def ScheduleEntry.SameCall (x y : ScheduleEntry) : Prop :=
  y.id = x.id ∧ y.kind = x.kind ∧ y.generator = x.generator ∧ y.condition = x.condition
    ∧ y.firePosition = x.firePosition ∧ y.late = x.late

theorem ScheduleEntry.SameCall.refl (x : ScheduleEntry) : x.SameCall x := ⟨rfl, rfl, rfl, rfl, rfl, rfl⟩

theorem ScheduleEntry.SameCall.trans {x y z : ScheduleEntry} (h : x.SameCall y) (k : y.SameCall z) : x.SameCall z := by
  obtain ⟨h1, h2, h3, h4, h5, h6⟩ := h
  obtain ⟨k1, k2, k3, k4, k5, k6⟩ := k
  exact ⟨k1.trans h1, k2.trans h2, k3.trans h3, k4.trans h4, k5.trans h5, k6.trans h6⟩

/-- Every entry of the second list is one of the first. -/
def EntriesFrom (l l' : List ScheduleEntry) : Prop := ∀ y ∈ l', ∃ x ∈ l, x.SameCall y

theorem EntriesFrom.refl (l : List ScheduleEntry) : EntriesFrom l l := fun y hy => ⟨y, hy, .refl y⟩

theorem EntriesFrom.trans {l m k : List ScheduleEntry} (h : EntriesFrom l m) (h' : EntriesFrom m k) : EntriesFrom l k :=
  fun z hz => by
    obtain ⟨y, hy, hyz⟩ := h' z hz
    obtain ⟨x, hx, hxy⟩ := h y hy
    exact ⟨x, hx, hxy.trans hyz⟩

theorem EntriesFrom.map (l : List ScheduleEntry) {f : ScheduleEntry → ScheduleEntry} (hf : ∀ x : ScheduleEntry, x.SameCall (f x)) :
    EntriesFrom l (l.map f) := fun _ hy => by
  obtain ⟨x, hx, rfl⟩ := List.mem_map.1 hy
  exact ⟨x, hx, hf x⟩

theorem EntriesFrom.filter (l : List ScheduleEntry) (p : ScheduleEntry → Bool) : EntriesFrom l (l.filter p) :=
  fun y hy => ⟨y, (List.mem_filter.1 hy).1, .refl y⟩

theorem fireEntries_from (g : GenNo) (p : Position) (older : List EntryId) (l : List ScheduleEntry) :
    EntriesFrom l (fireEntries g p older l) := by
  induction l generalizing older with
  | nil => exact .refl []
  | cons e l ih =>
    unfold fireEntries
    split
    · intro y hy
      rcases List.mem_cons.1 hy with rfl | hy
      · exact ⟨e, List.mem_cons_self, .refl e⟩
      · obtain ⟨x, hx, hxy⟩ := ih _ y hy
        exact ⟨x, List.mem_cons_of_mem _ hx, hxy⟩
    · intro y hy
      rcases List.mem_cons.1 hy with rfl | hy
      · exact ⟨y, List.mem_cons_self, .refl y⟩
      · obtain ⟨x, hx, hxy⟩ := ih _ y hy
        exact ⟨x, List.mem_cons_of_mem _ hx, hxy⟩

/-- No change of the Schedule Unit beside creation and a trigger edge gives an entry another fire position. -/
theorem ScheduleUnit.Moves.entriesFrom {x y : ScheduleUnit} (h : x.Moves y) : EntriesFrom x.entries y.entries := by
  cases h with
  | places id => exact .filter _ _
  | hands claim => exact .refl _
  | takes claim => exact .refl _
  | takesLoss claim => exact .refl _
  | loses claim => exact .refl _
  | fires g position => exact fireEntries_from g position [] _
  | decides id state ev hs he offering =>
    refine .map _ fun e => ?_
    dsimp only
    split <;> exact ⟨rfl, rfl, rfl, rfl, rfl, rfl⟩
  | _ =>
    refine .map _ fun e => ?_
    split <;> exact ⟨rfl, rfl, rfl, rfl, rfl, rfl⟩

/-! ### Operations of other streams -/

/-- `t` is `s` after operations of the streams of `on`, within one row: the rest of the streams and lanes, the Timebase
Unit and the control state are as they were, and no entry has another fire position. -/
structure State.Apart (on : StreamNo → Prop) (s t : State) : Prop where
  beyond : State.Beyond on on s t
  entries : EntriesFrom s.schedule.entries t.schedule.entries
  timebase : t.timebase = s.timebase
  engine : t.engine = s.engine
  pin : t.pin = s.pin
  notifyError : t.notifyError = s.notifyError
  pending : t.pending = s.pending
  claimChoices : t.claimChoices = s.claimChoices
  mode : t.transfers.mode = s.transfers.mode
  lead : t.transfers.lead = s.transfers.lead
  faultAddress : t.transfers.faultAddress = s.transfers.faultAddress

variable {on : StreamNo → Prop} {s t u : State}

theorem State.Apart.refl (on : StreamNo → Prop) (s : State) : State.Apart on s s :=
  ⟨.refl on on s, .refl _, rfl, rfl, rfl, rfl, rfl, rfl, rfl, rfl, rfl⟩

theorem State.Apart.trans (h : State.Apart on s t) (k : State.Apart on t u) : State.Apart on s u :=
  ⟨h.beyond.trans k.beyond, h.entries.trans k.entries, k.timebase.trans h.timebase, k.engine.trans h.engine,
    k.pin.trans h.pin, k.notifyError.trans h.notifyError, k.pending.trans h.pending, k.claimChoices.trans h.claimChoices,
    k.mode.trans h.mode, k.lead.trans h.lead, k.faultAddress.trans h.faultAddress⟩

/-- A change beside what `State.Apart` speaks of. -/
theorem State.Apart.frame (on : StreamNo → Prop) {s t : State} (streams : t.streams = s.streams) (ports : t.ports = s.ports)
    (events : t.events = s.events) (transfers : t.transfers = s.transfers) (entries : t.schedule.entries = s.schedule.entries)
    (rest : t.timebase = s.timebase ∧ t.engine = s.engine ∧ t.pin = s.pin ∧ t.notifyError = s.notifyError
      ∧ t.pending = s.pending ∧ t.claimChoices = s.claimChoices) : State.Apart on s t := by
  obtain ⟨htimebase, hengine, hpin, hnotify, hpending, hclaims⟩ := rest
  refine ⟨⟨fun m _ => ?_, fun m _ => ?_, .of_eq transfers, .of_eq events⟩, entries ▸ .refl _, htimebase, hengine, hpin, hnotify,
    hpending, hclaims, by rw [transfers], by rw [transfers], by rw [transfers]⟩
  · rw [State.stream, streams]
    rfl
  · rw [State.port, ports]
    rfl

/-- The operations of the streams of `on` keep the rest apart. -/
theorem apart_kept (on : StreamNo → Prop) (s : State) : State.Kept on (State.Apart on s) := by
  have K (t : State) := beyond_kept on t
  constructor
  case accept =>
    exact fun t e h hfree => h.trans { State.Apart.refl on t with beyond := (K t).accept t e (.refl _ _ t) hfree }
  case context =>
    exact fun t n d h hn hd => h.trans { State.Apart.refl on t with beyond := (K t).context t n d (.refl _ _ t) hn hd }
  case close =>
    exact fun t n h hn he => h.trans { State.Apart.refl on t with beyond := (K t).close t n (.refl _ _ t) hn he }
  case port =>
    exact fun t n p h hn => h.trans { State.Apart.refl on t with beyond := (K t).port t n p (.refl _ _ t) hn }
  case discard =>
    intro t n h hn
    have hbeyond := (K t).discard t n (.refl _ _ t) hn
    rw [State.discardReads_eq] at hbeyond ⊢
    exact h.trans { State.Apart.refl on t with beyond := hbeyond }
  case command =>
    exact fun t c h hc => h.trans { State.Apart.refl on t with beyond := (K t).command t c (.refl _ _ t) hc }
  case schedule =>
    exact fun t x h hx => h.trans
      { State.Apart.refl on t with beyond := (K t).schedule t x (.refl _ _ t) hx, entries := hx.entriesFrom }

theorem apart_keptByTick {n : StreamNo} (hn : on n) (s : State) : State.KeptByTick n (State.Apart on s) where
  accept := (apart_kept on s).accept
  context := fun t m d h hm hd => (apart_kept on s).context t m d h (hm ▸ hn) hd
  close := fun t m h hm => (apart_kept on s).close t m h (hm ▸ hn)
  port := fun t m p h hm => (apart_kept on s).port t m p h (hm ▸ hn)
  discard := fun t m h hm => (apart_kept on s).discard t m h (hm ▸ hn)
  command := (apart_kept on s).command
  schedule := (apart_kept on s).schedule
  ticks := fun t d h _ => h.trans { State.Apart.refl on t with
    beyond := ⟨fun m hm => State.stream_putStream_of_ne t d (by rintro rfl; exact hm hn), fun _ _ => rfl, .refl _ t, .refl t⟩ }

/-! ### The claims ahead of the tick -/

theorem State.takeOrder_apart (on : StreamNo → Prop) (s : State) : State.Apart on s s.takeOrder.2 := by
  rw [State.takeOrder_snd]
  exact .frame on rfl rfl rfl rfl rfl ⟨rfl, rfl, rfl, rfl, rfl, rfl⟩

/-- The stream is one that the loss of its reference faults (R84). -/
def Stream.isLost (c : Stream) : Bool := c.state == .armed || c.isRunning

/-- A loss claim faults streams of `on` alone, when those that it finds are of `on`. -/
theorem State.loseStreams_apart {g : GenNo} (hon : ∀ m, ¬on m → (s.stream m).generator = g → (s.stream m).isLost = false)
    (p : Position) : State.Apart on s (s.loseStreams g p) := by
  unfold State.loseStreams
  refine State.foldl_kept (P := State.Apart on s) _ _ (fun t n hn ht => ?_) (s.takeOrder_apart on)
  have hbound : (s.stream n).generator = g := by
    have hn : ((s.takeOrder.2.stream n).generator == g) = true := (List.mem_filter.1 hn).2
    rw [State.takeOrder_snd] at hn
    exact beq_iff_eq.1 hn
  dsimp only
  split
  · rename_i hlost
    refine (apart_kept on s).examineCommand ((apart_kept on s).fault ?_ _ _ ht)
    by_contra hnot
    have hfree := hon n hnot hbound
    rw [← ht.beyond.stream n hnot] at hfree
    exact absurd hlost (by rw [show ((t.stream n).state == .armed || (t.stream n).isRunning) = (t.stream n).isLost from rfl, hfree]; decide)
  · exact ht

theorem State.takeStreamLoss_apart {g : GenNo} (hon : ∀ m, ¬on m → (s.stream m).generator = g → (s.stream m).isLost = false) :
    State.Apart on s (s.takeStreamLoss g) := by
  unfold State.takeStreamLoss
  split
  · exact .refl on s
  · rename_i l _
    have hframe : State.Apart on s { s with streamLosses := s.streamLosses.erase l } :=
      .frame on rfl rfl rfl rfl rfl ⟨rfl, rfl, rfl, rfl, rfl, rfl⟩
    exact hframe.trans (State.loseStreams_apart (s := { s with streamLosses := s.streamLosses.erase l }) hon l.position)

theorem State.takeScheduleLoss_apart (on : StreamNo → Prop) (s : State) (g : GenNo) : State.Apart on s (s.takeScheduleLoss g) := by
  unfold State.takeScheduleLoss
  split
  · exact .refl on s
  · have K := apart_kept on s
    exact K.examineCommand (K.scheduleOps.loseEntries g (K.schedule s _ (.refl on s) (.takesLoss _)))

/-- The claims ahead of a tick of generator `g` leave the streams outside `on` alone: those bound to `g` are in no state that
a loss faults, or no loss claim of `g` waits. -/
theorem State.takeLosses_apart {g : GenNo} (hon : (∀ l ∈ s.streamLosses, l.generator ≠ g)
      ∨ ∀ m, ¬on m → (s.stream m).generator = g → (s.stream m).isLost = false) : State.Apart on s (s.takeLosses g) := by
  unfold State.takeLosses
  refine State.foldl_kept (P := State.Apart on s) _ _ (fun t _ _ ht => ht.trans (t.takeScheduleLoss_apart on g)) ?_
  rcases hon with hnone | hon
  · have hempty : s.streamLosses.filter (fun l => l.generator == g) = [] :=
      List.filter_eq_nil_iff.2 fun l hl h => hnone l hl (beq_iff_eq.1 h)
    rw [hempty]
    exact .refl on s
  · refine State.foldl_kept (P := State.Apart on s) _ _ (fun t _ _ ht => ht.trans (State.takeStreamLoss_apart fun m hm hg => ?_))
      (.refl on s)
    rw [ht.beyond.stream m hm] at hg ⊢
    exact hon m hm hg

/-! ### The tick -/

/-- An operation applied once to each of several streams meets each as the others left it, and they leave what it makes. -/
theorem State.foldl_visit (f : State → StreamNo → State) {R : State → State → Prop} (refl : ∀ s, R s s)
    (trans : ∀ {s t u}, R s t → R t u → R s u) {m : StreamNo} (l : List StreamNo) (hl : l.Nodup) (hm : m ∈ l)
    (hR : ∀ s, ∀ n ∈ l, n ≠ m → R s (f s n)) (s : State) : ∃ v, R s v ∧ R (f v m) (l.foldl f s) := by
  obtain ⟨l₁, l₂, rfl⟩ := List.append_of_mem hm
  obtain ⟨-, h₂, hdisj⟩ := List.nodup_append.1 hl
  have hne₁ : ∀ n ∈ l₁, n ≠ m := fun n hn => hdisj n hn m (by simp)
  have hne₂ : ∀ n ∈ l₂, n ≠ m := fun n hn h => (List.nodup_cons.1 h₂).1 (h ▸ hn)
  rw [List.foldl_append, List.foldl_cons]
  refine ⟨l₁.foldl f s, ?_, ?_⟩
  · exact State.foldl_kept (P := R s) f l₁ (fun t n hn ht => trans ht (hR t n (by simp [hn]) (hne₁ n hn))) (refl s)
  · exact State.foldl_kept (P := R (f (l₁.foldl f s) m)) f l₂ (fun t n hn ht => trans ht (hR t n (by simp [hn]) (hne₂ n hn)))
      (refl _)

/-- What ticking generator `g` sets out from: its position and edge count, and the entries that fire. -/
def State.ticked (s : State) (g : GenNo) : State :=
  { s.putGenerator g (s.generator g).tick with schedule := { s.schedule with
      entries := fireEntries g (s.generator g).tick.position [] s.schedule.entries } }

theorem State.tickGenerator_eq (s : State) (g : GenNo) (lanes : List (List Bool)) :
    s.tickGenerator g lanes = ((s.ticked g).takeOrder.1.filter fun n => ((s.ticked g).takeOrder.2.stream n).generator == g).foldl
      (fun u n => u.tickStream (lanes.getD n.val []) (s.generator g).tick.position n) (s.ticked g).takeOrder.2 := rfl

theorem State.tickStream_apart {n : StreamNo} (hn : on n) (bits : List Bool) (p : Position) (s : State) :
    State.Apart on s (s.tickStream bits p n) :=
  (apart_keptByTick hn s).tickStream bits p (.refl on s)

/-- A tick changes streams bound to its generator alone. -/
theorem State.tickGenerator_apart (s : State) (g : GenNo) (lanes : List (List Bool)) (hon : ∀ m, (s.stream m).generator = g → on m) :
    State.Apart on (s.ticked g) (s.tickGenerator g lanes) := by
  rw [State.tickGenerator_eq]
  refine State.foldl_kept (P := State.Apart on (s.ticked g)) _ _ (fun t n hn ht => ht.trans (State.tickStream_apart (hon n ?_) _ _ t))
    (State.takeOrder_apart on _)
  have hn := (List.mem_filter.1 hn).2
  rw [State.takeOrder_snd] at hn
  exact beq_iff_eq.1 hn

/-- The tick of generator `g` as stream `n` of it meets it. -/
theorem State.tickGenerator_visit (s : State) {g : GenNo} (lanes : List (List Bool)) {n : StreamNo} (hn : (s.stream n).generator = g) :
    ∃ v, State.Apart (· ≠ n) (s.ticked g) v
      ∧ State.Apart (· ≠ n) (v.tickStream (lanes.getD n.val []) (s.generator g).tick.position n) (s.tickGenerator g lanes) := by
  have hmem : n ∈ (s.ticked g).takeOrder.1.filter fun m => ((s.ticked g).takeOrder.2.stream m).generator == g := by
    refine List.mem_filter.2 ⟨State.mem_takeOrder _ n, ?_⟩
    rw [State.takeOrder_snd]
    exact beq_iff_eq.2 hn
  obtain ⟨v, hv, hfinal⟩ := State.foldl_visit
    (fun u m => u.tickStream (lanes.getD m.val []) (s.generator g).tick.position m) (R := State.Apart (· ≠ n))
    (.refl _) .trans _ (State.takeOrder_nodup (s.ticked g) |>.filter _) hmem
    (fun u m _ hne => State.tickStream_apart (on := (· ≠ n)) hne _ _ u) (s.ticked g).takeOrder.2
  exact ⟨v, (State.takeOrder_apart _ _).trans hv, hfinal⟩

/-- A tick in ACTIVE of a RUNNING generator whose edge count it completes. -/
theorem exec_tick {g : GenNo} (h : s.ticksNext g) (lanes : List (List Bool)) :
    exec (.tick g lanes) s = .next ((s.takeLosses g).tickGenerator g lanes).finish := by
  obtain ⟨hactive, hrunning, hedges, -⟩ := h
  refine congrArg Host.Outcome.next (if_pos ?_)
  simp [hactive, Generator.completesTick, hrunning, hedges]

/-- The position that the tick gives its generator. -/
theorem State.ticksNext_position {g : GenNo} (h : s.ticksNext g) (hlosses : (s.takeLosses g).timebase = s.timebase) :
    ((s.takeLosses g).generator g).tick.position = (s.generator g).position + 1 := by
  obtain ⟨-, -, -, hposition⟩ := h
  show nextPosition ((s.takeLosses g).generator g).position = _
  rw [State.generator, hlosses]
  exact raise_of_ne hposition

/-- What stream `n` meets at the tick of its generator `g`: a state that agrees with the one before in the stream, its lane,
the Timebase Unit but for the tick, and the entries' fire positions, and whose events have grown. -/
structure State.MeetsTick (s : State) (g : GenNo) (n : StreamNo) (v : State) : Prop where
  stream : v.stream n = s.stream n
  port : v.port n = s.port n
  timebase : v.timebase = (s.putGenerator g (s.generator g).tick).timebase
  entries : EntriesFrom s.schedule.entries v.schedule.entries
  transfers : State.MarksReads (· ≠ n) s v
  events : s.EventsGrow v

theorem exec_tick_visit {g : GenNo} {n : StreamNo} (h : s.ticksNext g) (lanes : List (List Bool)) (hn : (s.stream n).generator = g)
    (hspared : (∀ l ∈ s.streamLosses, l.generator ≠ g) ∨ (s.stream n).isLost = false) :
    ∃ v t, exec (.tick g lanes) s = .next t.finish ∧ s.MeetsTick g n v
      ∧ State.Apart (· ≠ n) (v.tickStream (lanes.getD n.val []) ((s.generator g).position + 1) n) t := by
  have hlosses : State.Apart (· ≠ n) s (s.takeLosses g) := State.takeLosses_apart (hspared.imp_right fun hfree m hm _ => by
    rw [not_not.1 hm]
    exact hfree)
  have hsame : (s.takeLosses g).stream n = s.stream n := hlosses.beyond.stream n (not_not_intro rfl)
  obtain ⟨v, hv, hfinal⟩ := (s.takeLosses g).tickGenerator_visit (g := g) lanes (by rw [hsame]; exact hn)
  rw [State.ticksNext_position h hlosses.timebase] at hfinal
  refine ⟨v, _, exec_tick h lanes, ⟨?_, ?_, ?_, ?_, ?_, ?_⟩, hfinal⟩
  · exact (hv.beyond.stream n (not_not_intro rfl)).trans hsame
  · exact (hv.beyond.port n (not_not_intro rfl)).trans (hlosses.beyond.port n (not_not_intro rfl))
  · rw [hv.timebase]
    show ((s.takeLosses g).putGenerator g ((s.takeLosses g).generator g).tick).timebase = _
    rw [State.generator, State.putGenerator, hlosses.timebase]
    rfl
  · exact (hlosses.entries.trans (fireEntries_from g _ [] _)).trans hv.entries
  · exact hlosses.beyond.transfers.trans hv.beyond.transfers
  · exact hlosses.beyond.events.trans hv.beyond.events

end Sys2Proof.Machine
end

section
/-! What a tick of a run makes of its stream: the counts, the notices and the lane (chapters 1 and 3). -/

namespace Sys2Proof.Machine

/-! ### Notices (R151) -/

/-- Between `s` and `t` notice `ev` was offered, with a missed count that went from `missed` to `missed'`: accepted while a
place was free, or dropped and counted. -/
def State.Noticed (s : State) (missed missed' : Nat) (ev : Event) (t : State) : Prop :=
  missed' = 0 ∧ ev ∈ t.heldEvents ∧ s.events.holding.length < 8
    ∨ missed' = min 65535 (missed + 1) ∧ 8 ≤ t.events.holding.length

theorem State.EventsGrow.length_le {s t : State} (h : s.EventsGrow t) : s.events.holding.length ≤ t.events.holding.length := by
  obtain ⟨more, hm⟩ := h
  rw [hm]
  simp

theorem State.Noticed.grow {r s t u : State} {missed missed' : Nat} {ev : Event} (h : s.Noticed missed missed' ev t)
    (before : r.EventsGrow s) (after : t.EventsGrow u) : r.Noticed missed missed' ev u := by
  rcases h with ⟨hm, hev, hfree⟩ | ⟨hm, hfull⟩
  · exact .inl ⟨hm, after.heldEvents.subset hev, before.length_le.trans_lt hfree⟩
  · exact .inr ⟨hm, hfull.trans after.length_le⟩

/-- The missed count that an offered notice leaves. -/
def State.missedAfter (s : State) (missed : Nat) : Nat := if s.placeFree then 0 else missedAfterDrop missed

theorem State.noticed_offer (s : State) (n : StreamNo) (missed : Nat) (ev : Event) (c d : Stream) :
    s.Noticed missed (s.missedAfter missed) ev (if s.placeFree then (s.accept ev).putStream n c else s.putStream n d) := by
  unfold State.missedAfter
  cases hfree : s.placeFree with
  | true => exact .inl ⟨rfl, by simp [State.heldEvents, State.accept], (State.placeFree_iff s).1 hfree⟩
  | false =>
    refine .inr ⟨rfl, Nat.le_of_not_lt fun h => ?_⟩
    exact absurd ((State.placeFree_iff s).2 h) (by rw [hfree]; decide)

theorem State.stream_offer (s : State) (n : StreamNo) (ev : Event) (c d : Stream) :
    (if s.placeFree then (s.accept ev).putStream n c else s.putStream n d).stream n = if s.placeFree then c else d := by
  split
  · exact State.stream_putStream _ _ _
  · exact State.stream_putStream _ _ _

theorem State.offerMark_leaves (s : State) (n : StreamNo) (tag : BitVec 32) (t : Position) :
    (s.offerMark n tag t).stream n = { s.stream n with markMissed := s.missedAfter (s.stream n).markMissed }
      ∧ s.Noticed (s.stream n).markMissed (s.missedAfter (s.stream n).markMissed)
        (.mark n tag t (s.stream n).markMissed) (s.offerMark n tag t) := by
  refine ⟨(State.stream_offer s n _ _ _).trans ?_, State.noticed_offer s n _ _ _ _⟩
  unfold State.missedAfter
  split <;> rfl

theorem State.offerStarveEnd_leaves (s : State) (n : StreamNo) (t : Position) (k : BitVec 64) :
    (s.offerStarveEnd n t k).stream n = { s.stream n with endMissed := s.missedAfter (s.stream n).endMissed }
      ∧ s.Noticed (s.stream n).endMissed (s.missedAfter (s.stream n).endMissed)
        (.starveEnd n t k (s.stream n).endMissed) (s.offerStarveEnd n t k) := by
  refine ⟨(State.stream_offer s n _ _ _).trans ?_, State.noticed_offer s n _ _ _ _⟩
  unfold State.missedAfter
  split <;> rfl

theorem State.offerStarveBegin_leaves (s : State) (n : StreamNo) (t : Position) :
    (s.offerStarveBegin n t).stream n = { s.stream n with beginMissed := s.missedAfter (s.stream n).beginMissed }
      ∧ s.Noticed (s.stream n).beginMissed (s.missedAfter (s.stream n).beginMissed)
        (.starveBegin n t (s.stream n).beginMissed) (s.offerStarveBegin n t) := by
  refine ⟨(State.stream_offer s n _ _ _).trans ?_, State.noticed_offer s n _ _ _ _⟩
  unfold State.missedAfter
  split <;> rfl

/-- The lanes and the transfers are as they were, and events joined the list. -/
def State.OnlyNotices (s t : State) : Prop := t.ports = s.ports ∧ t.transfers = s.transfers ∧ s.EventsGrow t

theorem State.OnlyNotices.refl (s : State) : s.OnlyNotices s := ⟨rfl, rfl, .refl s⟩

theorem State.OnlyNotices.trans {s t u : State} (h : s.OnlyNotices t) (k : t.OnlyNotices u) : s.OnlyNotices u :=
  ⟨k.1.trans h.1, k.2.1.trans h.2.1, h.2.2.trans k.2.2⟩

theorem State.offerMark_only (s : State) (n : StreamNo) (tag : BitVec 32) (t : Position) :
    s.OnlyNotices (s.offerMark n tag t) := by
  unfold State.offerMark
  dsimp only
  split
  · exact ⟨rfl, rfl, .accept s _⟩
  · exact ⟨rfl, rfl, .of_eq rfl⟩

theorem State.offerStarveEnd_only (s : State) (n : StreamNo) (t : Position) (k : BitVec 64) :
    s.OnlyNotices (s.offerStarveEnd n t k) := by
  unfold State.offerStarveEnd
  dsimp only
  split
  · exact ⟨rfl, rfl, .accept s _⟩
  · exact ⟨rfl, rfl, .of_eq rfl⟩

theorem State.offerStarveBegin_only (s : State) (n : StreamNo) (t : Position) : s.OnlyNotices (s.offerStarveBegin n t) := by
  unfold State.offerStarveBegin
  dsimp only
  split
  · exact ⟨rfl, rfl, .accept s _⟩
  · exact ⟨rfl, rfl, .of_eq rfl⟩

/-! ### A frame that moves -/

/-- `d` is `c` after the notices of a moved frame: MARK when `marks`, and STARVE_END when a starve run ends. -/
structure State.MovesFrame (s : State) (n : StreamNo) (t : Position) (marks : Option (BitVec 32)) (c d : Stream) (u : State) :
    Prop where
  body : ∃ mark starve, d = ({ c with markMissed := mark, endMissed := starve } : Stream).recovered
  marked : ∀ tag, marks = some tag → s.Noticed c.markMissed d.markMissed (.mark n tag t c.markMissed) u
  unmarked : marks = none → d.markMissed = c.markMissed
  starved : c.starveRun ≠ 0 → s.Noticed c.endMissed d.endMissed (.starveEnd n t c.starveRun c.endMissed) u
  unstarved : c.starveRun = 0 → d.endMissed = c.endMissed
  only : s.OnlyNotices u

theorem State.endStarveRun_eq (s : State) (n : StreamNo) (t : Position) :
    s.endStarveRun n t = (if (s.stream n).starveRun = 0 then s else s.offerStarveEnd n t (s.stream n).starveRun).modifyStream n
      Stream.recovered := by
  unfold State.endStarveRun
  simp only [bne_iff_ne, ne_eq, ite_not]
  rfl

/-- A frame that moves ends the starve run, when one is under way. -/
theorem State.endStarveRun_leaves (s : State) (n : StreamNo) (t : Position) :
    let c := s.stream n
    let u := s.endStarveRun n t
    (∃ starve, u.stream n = ({ c with endMissed := starve } : Stream).recovered)
      ∧ (c.starveRun ≠ 0 → s.Noticed c.endMissed (u.stream n).endMissed (.starveEnd n t c.starveRun c.endMissed) u)
      ∧ (c.starveRun = 0 → (u.stream n).endMissed = c.endMissed) ∧ s.OnlyNotices u := by
  dsimp only
  rw [State.endStarveRun_eq]
  by_cases hrun : (s.stream n).starveRun = 0
  · rw [if_pos hrun, State.stream_modifyStream]
    exact ⟨⟨_, rfl⟩, fun h => absurd hrun h, fun _ => rfl, rfl, rfl, .of_eq rfl⟩
  · obtain ⟨hstream, hnoticed⟩ := s.offerStarveEnd_leaves n t (s.stream n).starveRun
    rw [if_neg hrun, State.stream_modifyStream, hstream]
    refine ⟨⟨_, rfl⟩, fun _ => hnoticed.grow (.refl s) (.of_eq rfl), fun h => absurd h hrun, ?_⟩
    exact (s.offerStarveEnd_only n t _).trans ⟨rfl, rfl, .of_eq rfl⟩

/-- The MARK notice, when there is one, and the end of the starve run. -/
theorem State.moves_leaves (s : State) (n : StreamNo) (t : Position) (marks : Option (BitVec 32)) :
    let u := (marks.elim s (s.offerMark n · t)).endStarveRun n t
    s.MovesFrame n t marks (s.stream n) (u.stream n) u := by
  cases marks with
  | none =>
    obtain ⟨⟨starve, hbody⟩, hstarved, hunstarved, honly⟩ := s.endStarveRun_leaves n t
    exact ⟨⟨(s.stream n).markMissed, starve, hbody⟩, nofun, fun _ => by have k := congrArg Stream.markMissed hbody; exact k, hstarved, hunstarved, honly⟩
  | some tag =>
    obtain ⟨hstream, hnoticed⟩ := s.offerMark_leaves n tag t
    have hmark := s.offerMark_only n tag t
    obtain ⟨⟨starve, hbody⟩, hstarved, hunstarved, honly⟩ := (s.offerMark n tag t).endStarveRun_leaves n t
    rw [hstream] at hbody hstarved hunstarved
    refine ⟨⟨_, starve, hbody⟩, ?_, nofun, fun h => (hstarved h).grow hmark.2.2 (.refl _), hunstarved, hmark.trans honly⟩
    rintro _ ⟨⟩
    show s.Noticed _ (((s.offerMark n tag t).endStarveRun n t).stream n).markMissed _ _
    rw [hbody]
    exact hnoticed.grow (.refl s) honly.2.2

/-- The tag of the MARK notice that the first frame of a record produces (R38). -/
def StagedRecord.markTag (r : StagedRecord) (first : Bool) : Option (BitVec 32) :=
  if first && r.record.markFlag then some r.record.tag else none

theorem State.markFirst_eq (s : State) (n : StreamNo) (r : StagedRecord) (first : Bool) (t : Position) :
    s.markFirst n r first t = (r.markTag first).elim s (s.offerMark n · t) := by
  unfold State.markFirst StagedRecord.markTag
  split <;> rfl

/-- The lane of a stream as a frame period opens on it (R70, R72). -/
def State.lanePeriod (s : State) (n : StreamNo) (frame : List Byte) : Port :=
  if s.laneMayDrive n then ⟨true, frame⟩ else quietPort

theorem State.openPeriod_port (s : State) (n : StreamNo) (frame : List Byte) :
    (s.openPeriod n frame).port n = s.lanePeriod n frame := State.port_putPort ..

/-- `u` is `s` after stream `n` has moved a frame, which made its context `d` and opened a period with `frame`, and the
notices that follow it. -/
def State.FrameMoves (s : State) (n : StreamNo) (t : Position) (marks : Option (BitVec 32)) (d : Stream) (lane : Port)
    (u : State) : Prop :=
  ∃ w : State, w.events = s.events ∧ w.transfers = s.transfers ∧ w.port n = lane ∧ w.MovesFrame n t marks d (u.stream n) u

/-- The ready head frame passes the lane: its place is free, it is counted, and its notices are offered (R57). -/
theorem State.passFrame_leaves (s : State) (n : StreamNo) (t : Position) (p : Place) (rest : List Place) :
    s.FrameMoves n t (((s.stream n).recordAt p.ring).bind fun r => r.markTag (r.moved == 0))
      ((s.stream n).passed t p rest) (s.lanePeriod n p.data) (s.passFrame n t p rest) := by
  have hpassed : (s.openPeriod n p.data).modifyStream n (fun c => ({ c with
      fifo := rest
      dataFrames := if p.gap then c.dataFrames else raise .dataFrames c.dataFrames
      gapFrames := if p.gap then raise .gapFrames c.gapFrames else c.gapFrames
      lastFrame := p.data } : Stream).modifyRecord p.ring (fun r => r.passFrame t))
      = (s.openPeriod n p.data).putStream n ((s.stream n).passed t p rest) := rfl
  refine ⟨(s.openPeriod n p.data).putStream n ((s.stream n).passed t p rest), rfl, rfl, s.openPeriod_port n _, ?_⟩
  show State.MovesFrame _ n t _ _ ((s.passFrame n t p rest).stream n) (s.passFrame n t p rest)
  have hmoves := ((s.openPeriod n p.data).putStream n ((s.stream n).passed t p rest)).moves_leaves n t
    (((s.stream n).recordAt p.ring).bind fun r => r.markTag (r.moved == 0))
  rw [State.stream_putStream] at hmoves
  unfold State.passFrame
  dsimp only
  rw [hpassed]
  cases hr : (s.stream n).recordAt p.ring with
  | none =>
    rw [hr] at hmoves
    exact hmoves
  | some r =>
    rw [hr] at hmoves
    dsimp only
    rw [State.markFirst_eq]
    exact hmoves

/-- The lane's frame is assigned to its record, is counted, and its notices are offered (R59). -/
theorem State.assignFrame_leaves (s : State) (n : StreamNo) (t : Position) (r : StagedRecord) (frame : List Byte) :
    s.FrameMoves n t (r.markTag (r.progress == 0)) ((s.stream n).assigned t r frame) (s.port n) (s.assignFrame n t r frame) := by
  refine ⟨s.putStream n ((s.stream n).assigned t r frame), rfl, rfl, rfl, ?_⟩
  have hmoves := (s.putStream n ((s.stream n).assigned t r frame)).moves_leaves n t (r.markTag (r.progress == 0))
  rw [State.stream_putStream] at hmoves
  unfold State.assignFrame
  dsimp only
  rw [State.markFirst_eq]
  exact hmoves

/-- Without a record the MARK notice stands: the context in the fields of a run (R4). -/
theorem State.MovesFrame.fields {s : State} {n : StreamNo} {t : Position} {marks : Option (BitVec 32)} {c d : Stream} {u : State}
    (h : s.MovesFrame n t marks c d u) : d = { c with
      markMissed := d.markMissed, endMissed := d.endMissed, starveRun := 0
      state := if c.state == .starved then .running else c.state } := by
  obtain ⟨⟨mark, starve, rfl⟩, -⟩ := h
  rfl

/-! ### A starved tick -/

/-- The state of a stream that starves (R58, R60). -/
def Stream.starving (c : Stream) : Stream := { c with state := if c.state == .running then .starved else c.state }

theorem State.starvedTick_eq {s : State} {n : StreamNo} (t : Position) (h : (s.stream n).policy ≠ .halt) :
    s.starvedTick n t = (if (s.stream n).starveRun = 0 then (s.modifyStream n Stream.countStarved).offerStarveBegin n t
      else s.modifyStream n Stream.countStarved).modifyStream n Stream.starving := by
  have hpolicy : ((s.modifyStream n Stream.countStarved).stream n).policy ≠ .halt := by
    rw [State.stream_modifyStream]
    exact h
  unfold State.starvedTick
  dsimp only
  rw [if_neg (by rw [beq_iff_eq]; exact hpolicy)]
  exact congrArg (fun u : State => u.modifyStream n Stream.starving) (if_congr beq_iff_eq rfl rfl)

/-- A starved tick outside HALT: it is counted, and the first of a starve run offers STARVE_BEGIN (R58, R60, R63). -/
theorem State.starvedTick_leaves {s : State} {n : StreamNo} (t : Position) (h : (s.stream n).policy ≠ .halt) :
    let c := s.stream n
    let u := s.starvedTick n t
    (∃ begun, u.stream n = ({ c.countStarved with beginMissed := begun } : Stream).starving)
      ∧ (c.starveRun = 0 → s.Noticed c.beginMissed (u.stream n).beginMissed (.starveBegin n t c.beginMissed) u)
      ∧ (c.starveRun ≠ 0 → (u.stream n).beginMissed = c.beginMissed) ∧ s.OnlyNotices u := by
  dsimp only
  have hcounted : (s.modifyStream n Stream.countStarved).stream n = (s.stream n).countStarved := State.stream_modifyStream _ _ _
  rw [State.starvedTick_eq t h]
  by_cases hrun : (s.stream n).starveRun = 0
  · rw [if_pos hrun, State.stream_modifyStream]
    obtain ⟨hstream, hnoticed⟩ := (s.modifyStream n Stream.countStarved).offerStarveBegin_leaves n t
    have honly := (s.modifyStream n Stream.countStarved).offerStarveBegin_only n t
    rw [hstream, hcounted]
    rw [hcounted] at hnoticed
    exact ⟨⟨_, rfl⟩, fun _ => hnoticed.grow (.of_eq rfl) (.of_eq rfl), fun k => absurd hrun k, honly.1, honly.2.1,
      State.EventsGrow.trans (t := s.modifyStream n Stream.countStarved) (.of_eq rfl) honly.2.2⟩
  · rw [if_neg hrun, State.stream_modifyStream, hcounted]
    exact ⟨⟨(s.stream n).beginMissed, rfl⟩, fun k => absurd k hrun, fun _ => rfl, rfl, rfl, .of_eq rfl⟩

/-- A starved tick under HALT faults the stream (R58, R60). -/
theorem State.starvedTick_halts {s : State} {n : StreamNo} (t : Position) (h : (s.stream n).policy = .halt) :
    s.starvedTick n t = (s.modifyStream n Stream.countStarved).fault n .underrun t := by
  have hpolicy : ((s.modifyStream n Stream.countStarved).stream n).policy = .halt := by
    rw [State.stream_modifyStream]
    exact h
  unfold State.starvedTick
  dsimp only
  rw [if_pos (by rw [beq_iff_eq]; exact hpolicy)]

end Sys2Proof.Machine
end

section
/-! A stream in a run at the tick of its generator (R12), and the counts of each tick. -/

namespace Sys2Proof.Machine

variable {s v : State} {g : GenNo} {n : StreamNo}

theorem Stream.running_states {c : Stream} (h : c.isRunning = true) : c.state = .running ∨ c.state = .starved ∨ c.state = .draining := by
  simpa [Stream.isRunning, or_assoc] using h

/-! ### The tick that a stream in a run meets -/

theorem State.MeetsTick.generator (h : s.MeetsTick g n v) :
    v.generator g = (s.generator g).tick := by
  rw [State.generator, h.timebase]
  exact State.generator_putGenerator _ _ _

/-- The lane that a frame period opens at the tick is that of `State.periodOf`. -/
theorem State.MeetsTick.lanePeriod (h : s.MeetsTick g n v) (hg : (s.stream n).generator = g) (frame : List Byte) :
    v.lanePeriod n frame = s.periodOf n frame := by
  have hx : v.generator (v.stream n).generator = (s.generator (s.stream n).generator).tick := by
    rw [h.stream, hg, h.generator]
  refine if_congr ?_ rfl rfl
  unfold State.laneMayDrive bitClockWithin
  simp only [Bool.and_eq_true, bne_iff_ne, beq_iff_eq, decide_eq_true_eq, and_assoc]
  rw [hx, h.stream]
  rfl

/-- No entry takes the stream's tick: none of its kind that names the stream fires at it (R99). -/
theorem State.MeetsTick.not_firing (h : s.MeetsTick g n v) (hg : (s.stream n).generator = g) {kind : EntryKind}
    (hnone : s.notFiring n kind) (p : ScheduleEntry → Bool) (hp : ∀ e, p e = true → e.kind = kind) :
    (v.firingEntry n ((s.generator g).position + 1)).filter p = none := by
  rw [Option.filter_eq_none_iff]
  intro e he hpe
  unfold State.firingEntry at he
  split at he
  · cases he
  · rename_i id hid
    obtain ⟨hfind, hfire⟩ := Option.filter_eq_some_iff.1 he
    obtain ⟨x, hx, hxid, hxkind, -, -, hxfire, -⟩ := h.entries e (State.entry?_mem hfind)
    rw [h.stream] at hid
    refine hnone x hx ?_ (hxkind.symm.trans (hp e hpe)) ?_
    · rw [hid, ← hxid, State.entry?_id hfind]
    · rw [hg, ← hxfire]
      exact beq_iff_eq.1 hfire

/-- The idle or starve content of a lane outside a moved frame (R64, R71). -/
def Stream.tailFrame (c : Stream) : List Byte :=
  match c.direction with
  | .output => c.starveFrame
  | .capture => []

/-- What the tick of a run does: it runs on, or it counts in the tail of an ended run (R12, R64). -/
theorem State.tickStream_running {t : Position} {bits : List Bool} (hr : (s.stream n).isRunning = true)
    (hnone : (s.firingEntry n t).filter (fun e => e.kind == .stop && (s.stream n).state != .draining) = none) :
    s.tickStream bits t n = if (s.stream n).inTail then
        (s.openPeriod n (s.stream n).tailFrame).modifyStream n Stream.tailTick
      else (s.runTick n t bits).settleStream n := by
  unfold State.tickStream
  dsimp only
  rw [hnone]
  rcases Stream.running_states hr with h | h | h <;> rw [h] <;> rfl

/-- The tick of a stream in a run (R12): what it meets, and what the rest of the row leaves of it. -/
theorem State.runsOn_tick (h : s.runsOn n) (lanes : List (List Bool)) :
    ∃ v t, exec (.tick (s.stream n).generator lanes) s = .next t.finish ∧ s.MeetsTick (s.stream n).generator n v
      ∧ State.Apart (· ≠ n) (if (s.stream n).inTail then
          (v.openPeriod n (s.stream n).tailFrame).modifyStream n Stream.tailTick
        else (v.runTick n ((s.generator (s.stream n).generator).position + 1) (lanes.getD n.val [])).settleStream n) t := by
  obtain ⟨hticks, hrunning, hfiring, hlosses, -⟩ := h
  obtain ⟨v, t, hexec, hmeets, hafter⟩ := exec_tick_visit hticks lanes rfl (.inl hlosses)
  refine ⟨v, t, hexec, hmeets, ?_⟩
  rw [State.tickStream_running (by rw [hmeets.stream]; exact hrunning), hmeets.stream] at hafter
  · exact hafter
  · rw [hmeets.stream]
    rcases hfiring with hdraining | hnot
    · rw [hdraining, Option.filter_eq_none_iff]
      intro e _ he
      simp at he
    · exact hmeets.not_firing rfl hnot _ fun e he => by simpa using (Bool.and_eq_true_iff.1 he).1

/-! ### The counts -/

/-- One of the counts of a run has risen by one. -/
def Stream.CountsOne (c d : Stream) : Prop :=
  d.startPosition = c.startPosition
    ∧ (d.dataFrames = c.dataFrames + 1 ∧ d.gapFrames = c.gapFrames ∧ d.starvedFrames = c.starvedFrames
      ∨ d.dataFrames = c.dataFrames ∧ d.gapFrames = c.gapFrames + 1 ∧ d.starvedFrames = c.starvedFrames
      ∨ d.dataFrames = c.dataFrames ∧ d.gapFrames = c.gapFrames ∧ d.starvedFrames = c.starvedFrames + 1)

/-- Context `d` is that of `c` in its run fields. -/
theorem Stream.CountsOne.congr {b c d : Stream} (h : b.CountsOne c) (start : d.startPosition = c.startPosition)
    (data : d.dataFrames = c.dataFrames) (gap : d.gapFrames = c.gapFrames) (starved : d.starvedFrames = c.starvedFrames) :
    b.CountsOne d := by
  unfold Stream.CountsOne
  rw [start, data, gap, starved]
  exact h

theorem Stream.CountsOne.settles {b c d : Stream} (h : b.CountsOne c) (k : c.Settles d) : b.CountsOne d := by
  refine h.congr ?_ ?_ ?_ ?_ <;> rw [k.body]

theorem Stream.countStarved_countsOne {c : Stream} (h : c.BelowTop) : c.CountsOne c.countStarved :=
  ⟨rfl, .inr (.inr ⟨rfl, rfl, raise_of_ne h.2.2⟩)⟩

/-- A frame that moves is counted as data or as gap. -/
theorem Stream.countsOne_moved {c d : Stream} (h : c.BelowTop) (gap : Bool) (start : d.startPosition = c.startPosition)
    (data : d.dataFrames = if gap then c.dataFrames else raise .dataFrames c.dataFrames)
    (gaps : d.gapFrames = if gap then raise .gapFrames c.gapFrames else c.gapFrames)
    (starved : d.starvedFrames = c.starvedFrames) : c.CountsOne d := by
  refine ⟨start, ?_⟩
  rw [data, gaps, starved]
  cases gap with
  | true => exact .inr (.inl ⟨rfl, raise_of_ne h.2.1, rfl⟩)
  | false => exact .inl ⟨raise_of_ne h.1, rfl, rfl⟩

/-- The stream is in no state whose end leaves its run fields behind. -/
def Stream.isOpen (c : Stream) : Prop := c.state ≠ .stopping ∧ c.state ≠ .closed

theorem Stream.isOpen_of_running {c : Stream} (h : c.isRunning = true) : c.isOpen := by
  rcases Stream.running_states h with h | h | h <;> exact ⟨by rw [h]; decide, by rw [h]; decide⟩

theorem Stream.isOpen_recovered {c : Stream} (h : c.isOpen) : c.recovered.isOpen := by
  unfold Stream.isOpen Stream.recovered
  dsimp only
  split
  · exact ⟨nofun, nofun⟩
  · exact h

theorem Stream.Settles.isOpen {c d : Stream} (h : c.Settles d) (hc : c.isOpen) : d.isOpen := by
  rcases h.links with ⟨hs, -⟩ | ⟨hs, -⟩
  · exact ⟨hs ▸ hc.1, hs ▸ hc.2⟩
  · exact ⟨by rw [hs]; decide, by rw [hs]; decide⟩

theorem Stream.faultedWith_body (c : Stream) (cause : FaultCause) (p : Position) :
    c.faultedWith cause p = { c with
      fifo := c.emptied.fifo
      fetchSplit := c.emptied.fetchSplit
      state := .faulted
      faultCause := some cause
      faultInRun := c.isRunning && !c.inTail
      scheduleEntry := none
      drainLimit := none
      faultOwed := some (cause, p) } := by
  rw [Stream.faultedWith, Stream.emptied_body]

/-- A stream that faults reports what it can. -/
theorem State.fault_settles (s : State) (n : StreamNo) (cause : FaultCause) (p : Position) :
    ((s.stream n).faultedWith cause p).Settles ((s.fault n cause p).stream n) ∧ (s.fault n cause p).port n = s.port n := by
  have hstream : (s.enterFaulted n cause p).stream n = (s.stream n).faultedWith cause p := by
    rw [State.enterFaulted_frame, State.stream_putStream]
  have hport : (s.enterFaulted n cause p).port n = s.port n := by
    rw [State.enterFaulted_frame]
    rfl
  obtain ⟨hsettles, hlane⟩ := State.settle_open (s := s.enterFaulted n cause p) (n := n)
    (by rw [hstream]; nofun) (by rw [hstream]; nofun)
  exact ⟨hstream ▸ hsettles, hlane.trans hport⟩

theorem State.starvedTick_counts (t : Position) (hbelow : (s.stream n).BelowTop) (hopen : (s.stream n).isOpen) :
    (s.stream n).CountsOne ((s.starvedTick n t).stream n) ∧ ((s.starvedTick n t).stream n).isOpen := by
  have hcounts := Stream.countStarved_countsOne hbelow
  by_cases hpolicy : (s.stream n).policy = .halt
  · rw [State.starvedTick_halts t hpolicy]
    obtain ⟨hsettles, -⟩ := (s.modifyStream n Stream.countStarved).fault_settles n .underrun t
    rw [State.stream_modifyStream] at hsettles
    refine ⟨(hcounts.congr ?_ ?_ ?_ ?_).settles hsettles, hsettles.isOpen ⟨nofun, nofun⟩⟩ <;> rw [Stream.faultedWith_body]
  · obtain ⟨⟨begun, hstream⟩, -⟩ := State.starvedTick_leaves t hpolicy
    rw [hstream]
    refine ⟨hcounts.congr rfl rfl rfl rfl, ?_⟩
    unfold Stream.isOpen Stream.starving
    dsimp only
    split
    · exact ⟨nofun, nofun⟩
    · exact hopen

theorem State.FrameMoves.counts {t : Position} {marks : Option (BitVec 32)} {c d : Stream} {lane : Port} {u : State}
    (h : s.FrameMoves n t marks d lane u) (hcounts : c.CountsOne d) (hopen : d.isOpen) :
    c.CountsOne (u.stream n) ∧ (u.stream n).isOpen := by
  obtain ⟨w, -, -, -, ⟨mark, starve, hbody⟩, -⟩ := h
  rw [hbody]
  exact ⟨hcounts.congr rfl rfl rfl rfl, Stream.isOpen_recovered hopen⟩

theorem State.runTick_counts (t : Position) (bits : List Bool) (hbelow : (s.stream n).BelowTop) (hopen : (s.stream n).isOpen) :
    (s.stream n).CountsOne ((s.runTick n t bits).stream n) ∧ ((s.runTick n t bits).stream n).isOpen := by
  unfold State.runTick State.outputTick State.captureTick
  dsimp only
  split
  · split
    · rename_i p rest _
      split
      · exact (s.passFrame_leaves n t p rest).counts (Stream.countsOne_moved hbelow p.gap rfl rfl rfl rfl) hopen
      · exact State.starvedTick_counts (s := s.openPeriod n _) t hbelow hopen
    · exact State.starvedTick_counts (s := s.openPeriod n _) t hbelow hopen
  · split
    · exact State.starvedTick_counts (s := s.openPeriod n _) t hbelow hopen
    · rename_i r _
      split
      · exact ((s.openPeriod n []).assignFrame_leaves n t r _).counts
          (Stream.countsOne_moved hbelow r.record.isGap rfl rfl rfl rfl) hopen
      · exact State.starvedTick_counts (s := s.openPeriod n _) t hbelow hopen

/-- The rest of a row leaves the run fields of a stream that it is not about. -/
theorem State.finish_countsOne {c : Stream} {t u : State} (h : c.CountsOne (u.stream n)) (hafter : State.Apart (· ≠ n) u t) :
    c.CountsOne (t.finish.stream n) := by
  have hsame : t.stream n = u.stream n := hafter.beyond.stream n (not_not_intro rfl)
  rw [t.finish_body n]
  exact h.congr (by rw [hsame]) (by rw [hsame]) (by rw [hsame]) (by rw [hsame])

end Sys2Proof.Machine

open Sys2Proof Sys2Proof.Machine

/-- Settles O38: a frame moves or a starved frame counts, and the reports that follow leave the counts. -/
theorem runTickCounts : Obligations.RunTickCounts := by
  intro s n lanes h
  obtain ⟨v, t, hexec, hmeets, hafter⟩ := State.runsOn_tick h lanes
  obtain ⟨-, hrunning, -, -, hdata, hgap, hstarved, -⟩ := h
  have hbelow : (v.stream n).BelowTop := by
    rw [hmeets.stream]
    exact ⟨hdata, hgap, hstarved⟩
  have hopen : (v.stream n).isOpen := by
    rw [hmeets.stream]
    exact Stream.isOpen_of_running hrunning
  refine ⟨_, hexec, State.finish_countsOne ?_ hafter⟩
  rw [← hmeets.stream]
  split
  · rw [State.stream_modifyStream]
    exact (Stream.countStarved_countsOne hbelow).congr rfl rfl rfl rfl
  · obtain ⟨hcounts, hstays⟩ := State.runTick_counts ((s.generator (v.stream n).generator).position + 1) (lanes.getD n.val []) hbelow hopen
    exact hcounts.settles (State.settleStream_open hstays.1 hstays.2).1

end

section
/-! The tail of an ended run (R64), and the starved tick (R58, R60). -/

namespace Sys2Proof.Machine

variable {s v : State} {g : GenNo} {n : StreamNo}

/-- The context of a stream through the closing grants, from what its tick left. -/
theorem State.Apart.finish_grantsTo {u t : State} (h : State.Apart (· ≠ n) u t) : (u.stream n).grantsTo (t.finish.stream n) := by
  have hsame : t.stream n = u.stream n := h.beyond.stream n (not_not_intro rfl)
  rw [← hsame]
  exact t.finish_grantsTo.2.2.1 n

theorem State.Apart.finish_port {u t : State} (h : State.Apart (· ≠ n) u t) : t.finish.port n = u.port n := by
  rw [State.port, State.finish_ports]
  exact h.beyond.port n (not_not_intro rfl)

/-- The frame that a lane carries on a tick without one (R22, R58, R64). -/
theorem Stream.tailFrame_eq (c : Stream) :
    c.tailFrame = if c.direction = .capture then []
      else if c.policy = .repeatFrame then c.lastFrame else List.replicate c.frameSize 0 := by
  unfold Stream.tailFrame
  cases hd : c.direction with
  | output =>
    rw [if_neg (by decide)]
    exact if_congr beq_iff_eq rfl rfl
  | capture => rfl

end Sys2Proof.Machine

open Sys2Proof Sys2Proof.Machine

/-- Settles O42: the tick counts as starved, and brings the waiting STOP_DONE up to itself. -/
theorem endedRunTicks : Obligations.EndedRunTicks := by
  intro s n lanes h htail c d
  obtain ⟨v, t, hexec, hmeets, hafter⟩ := State.runsOn_tick h lanes
  rw [if_pos htail] at hafter
  obtain ⟨-, -, -, -, -, -, hstarved, hrun⟩ := h
  refine ⟨_, hexec, ?_, ?_⟩
  · have hgrants := hafter.finish_grantsTo
    rw [State.stream_modifyStream] at hgrants
    refine Eq.subst (motive := fun x => Stream.grantsTo x _) ?_ hgrants
    show (v.stream n).tailTick = _
    rw [hmeets.stream, Stream.tailTick, Stream.countStarved, raise_of_ne hstarved, raise_of_ne hrun]
    dsimp only [d, c]
    congr 1
    cases (s.stream n).pendingReport with
    | none => rfl
    | some r =>
      obtain ⟨ev, drainRun⟩ := r
      cases ev <;> rfl
  · rw [hafter.finish_port, ← Stream.tailFrame_eq, ← hmeets.lanePeriod rfl]
    exact v.openPeriod_port n _

end

section
/-! The tick of a generator and the streams that are in no run (R7, R71, R72, R79). -/

namespace Sys2Proof.Machine

variable {s v : State} {g : GenNo} {n : StreamNo}

/-- The states in which a tick gives its stream's lane the idle content (R7, R71). -/
theorem State.tickStream_idle {t : Position} {bits : List Bool} (h : (s.stream n).state = .idle ∨ (s.stream n).state = .stopping
      ∨ (s.stream n).state = .faulted
      ∨ (s.stream n).state = .armed ∧ (s.firingEntry n t).filter (fun e => e.kind == .start) = none) :
    s.tickStream bits t n = s.idlePeriod n := by
  unfold State.tickStream
  dsimp only
  rcases h with h | h | h | ⟨h, hnone⟩
  · rw [h]
  · rw [h]
  · rw [h]
  · rw [h]
    dsimp only
    split
    · rename_i e he
      rw [he] at hnone
      rw [if_neg fun hk => ?_]
      rw [Option.filter_eq_none_iff] at hnone
      exact hnone e rfl hk
    · rfl

theorem State.tickStream_closed {t : Position} {bits : List Bool} (h : (s.stream n).state = .closed) :
    s.tickStream bits t n = s := by
  unfold State.tickStream
  dsimp only
  rw [h]

theorem Stream.isLost_false {c : Stream} (h : c.state = .closed ∨ c.state = .idle ∨ c.state = .stopping ∨ c.state = .faulted) :
    c.isLost = false := by
  rcases h with h | h | h | h <;> simp [Stream.isLost, Stream.isRunning, h]

theorem Stream.idleFrame_eq (c : Stream) : (match c.direction with
    | .output => c.zeroFrame
    | .capture => []) = if c.direction = .capture then [] else List.replicate c.frameSize 0 := by
  cases c.direction <;> rfl

/-- The idle content of a lane opens the period of `State.periodOf`. -/
theorem State.MeetsTick.idlePeriod_port (h : s.MeetsTick g n v) (hg : (s.stream n).generator = g) :
    (v.idlePeriod n).port n
      = s.periodOf n (if (s.stream n).direction = .capture then [] else List.replicate (s.stream n).frameSize 0) := by
  rw [← Stream.idleFrame_eq, ← h.lanePeriod hg, ← h.stream]
  exact v.openPeriod_port n _

/-- The whole tick of generator `g` changes its streams, and nothing that is bound elsewhere (R79). -/
theorem State.tick_apart (s : State) (g : GenNo) (lanes : List (List Bool)) :
    let on : StreamNo → Prop := fun m => (s.stream m).generator = g
    State.Apart on s (s.takeLosses g) ∧ State.Apart on ((s.takeLosses g).ticked g) ((s.takeLosses g).tickGenerator g lanes) := by
  intro on
  have hlosses : State.Apart on s (s.takeLosses g) := State.takeLosses_apart (.inr fun m hm hg => absurd hg hm)
  refine ⟨hlosses, State.tickGenerator_apart _ g lanes fun m hm => ?_⟩
  by_contra hnot
  have hsame : (s.takeLosses g).stream m = s.stream m := hlosses.beyond.stream m hnot
  rw [hsame] at hm
  exact hnot hm

end Sys2Proof.Machine

open Sys2Proof Sys2Proof.Machine

/-- Settles O37: what the tick changes, then the streams it only gives a period, and the edges that are no tick. -/
theorem tickAdvances : Obligations.TickAdvances := by
  intro s g lanes x
  refine ⟨fun h => ?_, fun hnone => ?_⟩
  · obtain ⟨hlosses, hticks⟩ := s.tick_apart g lanes
    have hexec := exec_tick h lanes
    have hbeyond : State.Beyond (fun m => (s.stream m).generator = g) (fun m => (s.stream m).generator = g) (s.takeLosses g)
        ((s.takeLosses g).tickGenerator g lanes) :=
      ⟨hticks.beyond.stream, hticks.beyond.port, hticks.beyond.transfers, hticks.beyond.events⟩
    have hvisit (n : StreamNo) (hn : (s.stream n).generator = g)
        (hspared : (∀ l ∈ s.streamLosses, l.generator ≠ g) ∨ (s.stream n).isLost = false) :
        ∃ v, s.MeetsTick g n v ∧ (((v.tickStream (lanes.getD n.val []) (x.position + 1) n).stream n).grantsTo
            (((s.takeLosses g).tickGenerator g lanes).finish.stream n))
          ∧ ((s.takeLosses g).tickGenerator g lanes).finish.port n
            = (v.tickStream (lanes.getD n.val []) (x.position + 1) n).port n := by
      obtain ⟨v, t, hexec', hmeets, hafter⟩ := exec_tick_visit h lanes hn hspared
      have hfinal := Host.Outcome.next.inj (hexec.symm.trans hexec')
      rw [hfinal]
      exact ⟨v, hmeets, hafter.finish_grantsTo, hafter.finish_port⟩
    refine ⟨_, hexec, ?_, ?_, ?_, ?_, ?_, ?_, ?_, ?_, ?_, (hlosses.beyond.trans hbeyond).finish (.refl none s), fun n hn => ?_⟩
    · rw [State.finish_timebase, State.tickGenerator_timebase, State.generator, State.putGenerator, hlosses.timebase]
      show (s.putGenerator g (s.generator g).tick).timebase = _
      rw [Generator.tick, show nextPosition (s.generator g).position = _ from raise_of_ne h.2.2.2]
    · exact (State.finish_engine _).trans (hticks.engine.trans hlosses.engine)
    · exact (State.finish_pin _).trans (hticks.pin.trans hlosses.pin)
    · exact (State.finish_notifyError _).trans (hticks.notifyError.trans hlosses.notifyError)
    · exact (State.finish_pending _).trans (hticks.pending.trans hlosses.pending)
    · exact (State.finish_mode _).trans (hticks.mode.trans hlosses.mode)
    · exact (State.finish_faultAddress _).trans (hticks.faultAddress.trans hlosses.faultAddress)
    · obtain ⟨-, -, -, -, hlead, -⟩ := ((s.takeLosses g).tickGenerator g lanes).finish_control
      exact hlead.trans (hticks.lead.trans hlosses.lead)
    · obtain ⟨-, -, -, -, -, hclaims, -⟩ := ((s.takeLosses g).tickGenerator g lanes).finish_control
      exact hclaims.trans (hticks.claimChoices.trans hlosses.claimChoices)
    · intro c
      refine ⟨fun hclosed => ?_, fun hstate => ?_⟩
      · obtain ⟨v, hmeets, hgrants, hport⟩ := hvisit n hn (.inr (Stream.isLost_false (.inl hclosed)))
        rw [State.tickStream_closed (by rw [hmeets.stream]; exact hclosed), hmeets.stream] at hgrants
        rw [State.tickStream_closed (by rw [hmeets.stream]; exact hclosed), hmeets.port] at hport
        exact ⟨hgrants, hport⟩
      · have hspared : (∀ l ∈ s.streamLosses, l.generator ≠ g) ∨ (s.stream n).isLost = false := by
          rcases hstate with h | h | h | ⟨-, -, h⟩
          · exact .inr (Stream.isLost_false (.inr (.inl h)))
          · exact .inr (Stream.isLost_false (.inr (.inr (.inl h))))
          · exact .inr (Stream.isLost_false (.inr (.inr (.inr h))))
          · exact .inl h
        obtain ⟨v, hmeets, hgrants, hport⟩ := hvisit n hn hspared
        have hidle : v.tickStream (lanes.getD n.val []) (x.position + 1) n = v.idlePeriod n := by
          refine State.tickStream_idle ?_
          rw [hmeets.stream]
          exact hstate.imp_right (Or.imp_right (Or.imp_right fun k =>
            ⟨k.1, hmeets.not_firing hn k.2.1 _ fun e he => beq_iff_eq.1 he⟩))
        rw [hidle] at hgrants hport
        have hstream : (v.idlePeriod n).stream n = s.stream n := hmeets.stream
        rw [hstream] at hgrants
        exact ⟨hgrants, hport.trans (hmeets.idlePeriod_port hn)⟩
  · refine congrArg Host.Outcome.next (if_neg fun h => ?_)
    simp only [Generator.completesTick, Bool.and_eq_true, beq_iff_eq] at h
    obtain ⟨hactive, hrunning, hedges⟩ := h
    rcases hnone with hnone | hnone | hnone
    · exact Bool.false_ne_true (hnone.symm.trans hactive)
    · exact hnone hrunning
    · exact hnone hedges

end

section
/-! The entry to FAULTED and what it leaves to report (R19, R45, R46). -/

namespace Sys2Proof.Machine

variable {s : State} {n : StreamNo}

/-- What each step of an examination keeps, the examination keeps. -/
theorem settleFuel_keeps {P : State → Prop} (hstep : ∀ t u, P t → t.settleStep n = some u → P u) (k : Nat) (h : P s) :
    P (settleFuel k n s) := by
  induction k generalizing s with
  | zero => exact h
  | succ k ih =>
    unfold settleFuel
    split
    · exact h
    · rename_i u hu
      exact ih (hstep s u h hu)

theorem State.settle_keeps {P : State → Prop} (hstep : ∀ t u, P t → t.settleStep n = some u → P u) (h : P s) : P (s.settle n) :=
  settleFuel_keeps hstep _ h

/-- The STREAM_FAULT of the stream has joined the list, waits, or is owed behind a report that waits (R45, R46). -/
def State.OwesFault (s : State) (n : StreamNo) (cause : FaultCause) (p : Position) : Prop :=
  .streamFault n cause p ∈ s.heldEvents ∨ (s.stream n).pendingReport = some ⟨.streamFault n cause p, false⟩
    ∨ (s.stream n).faultOwed = some (cause, p)

/-- A stream in FAULTED whose owed STOP_DONE, when there is one, ends no STOPPING. -/
def Stream.RestsFaulted (c : Stream) : Prop := c.state = .faulted ∧ ∀ o ∈ c.stopOwed, o.reason ≠ .command

theorem Stream.RestsFaulted.not_running {c : Stream} (h : c.RestsFaulted) : c.isRunning = false := by
  simp [Stream.isRunning, h.1]

/-- A report of a stream in FAULTED leaves it there (R19, R64). -/
theorem State.settleStep_faulted {u : State} (h : (s.stream n).RestsFaulted) (hu : s.settleStep n = some u) :
    (u.stream n).RestsFaulted ∧ s.heldEvents <+: u.heldEvents := by
  refine State.settleStep_cases (P := fun u => (u.stream n).RestsFaulted ∧ s.heldEvents <+: u.heldEvents) hu ?_ ?_ ?_ ?_ ?_
  · intro cause p _
    obtain ⟨hstream, hheld, -⟩ := State.produce_leaves s n { s.stream n with faultOwed := none } (.streamFault n cause p) false
    rw [hstream, hheld]
    refine ⟨?_, List.prefix_append _ _⟩
    split <;> exact h
  · intro r st hr
    obtain ⟨rest, hstaging, -⟩ := State.retirableHead_eq_some hr
    obtain ⟨hstream, hheld, -⟩ := State.retireHead_leaves st hstaging
    have hends : (s.stream n).endsWith r st = false := by
      rw [Stream.endsWith, h.not_running, Bool.and_false]
    rw [hstream, hheld, hends]
    exact ⟨h, List.prefix_append _ _⟩
  · intro o ho
    obtain ⟨hstream, hheld, -⟩ := State.produce_leaves s n { s.stream n with stopOwed := none }
      (.streamStopDone n (s.stream n).generator o.reason (s.stream n).finalPosition) o.drainRun
    rw [hstream, hheld, Stream.placed_stopDone]
    have hstays : (o.reason == .command || ({ s.stream n with stopOwed := none } : Stream).isRunning) = false := by
      rw [Bool.or_eq_false_iff]
      exact ⟨beq_eq_false_iff_ne.2 (h.2 o ho), h.not_running⟩
    rw [hstays]
    refine ⟨?_, List.prefix_append _ _⟩
    split <;> exact ⟨h.1, nofun⟩
  · intro _ hdrain
    simp [Stream.drainComplete, h.1] at hdrain
  · intro _ hends
    simp [State.stoppingEnds, h.1] at hends

/-- The STREAM_FAULT that is owed is reported first (R46). -/
theorem State.settleStep_owesFault {u : State} {cause : FaultCause} {p : Position} (h : (s.stream n).RestsFaulted)
    (howes : s.OwesFault n cause p) (hu : s.settleStep n = some u) : u.OwesFault n cause p := by
  have hpending : (s.stream n).pendingReport = none := by
    by_contra hp
    rw [State.settleStep_of_pending hp] at hu
    cases hu
  rcases howes with hheld | hwaits | howed
  · exact .inl ((State.settleStep_faulted h hu).2.subset hheld)
  · rw [hpending] at hwaits
    cases hwaits
  · rw [State.settleStep_fault hpending howed] at hu
    cases hu
    obtain ⟨hstream, hheld, -⟩ := State.produce_leaves s n { s.stream n with faultOwed := none } (.streamFault n cause p) false
    unfold State.OwesFault
    rw [hstream, hheld]
    cases s.accepts n { s.stream n with faultOwed := none } false with
    | true => exact .inl (by simp)
    | false => exact .inr (.inl rfl)

theorem State.settle_faulted {cause : FaultCause} {p : Position} (h : (s.stream n).RestsFaulted)
    (howes : s.OwesFault n cause p) : ((s.settle n).stream n).RestsFaulted ∧ (s.settle n).OwesFault n cause p :=
  State.settle_keeps (P := fun t => (t.stream n).RestsFaulted ∧ t.OwesFault n cause p)
    (fun _ _ ht hu => ⟨(State.settleStep_faulted ht.1 hu).1, State.settleStep_owesFault ht.1 ht.2 hu⟩) ⟨h, howes⟩

/-- Context `d` is what the fault of `c` leaves: FAULTED with its cause, out of its entry and its drain, the FIFO emptied, and
the run fields, the ring and the last frame as they were (R19, R66). -/
structure Stream.FaultLeaves (c : Stream) (cause : FaultCause) (d : Stream) : Prop where
  state : d.state = .faulted
  faultCause : d.faultCause = some cause
  faultInRun : d.faultInRun = (c.isRunning && !c.inTail)
  drainLimit : d.drainLimit = none
  scheduleEntry : d.scheduleEntry = none
  run : c.sameRun d
  consumer : d.consumer = c.consumer
  lastFrame : d.lastFrame = c.lastFrame
  fifo : d.fifo = c.emptied.fifo
  staging : unretired d.staging <:+ unretired c.staging

theorem Stream.faultLeaves_of_settles {c d : Stream} {cause : FaultCause} {p : Position}
    (h : (c.faultedWith cause p).Settles d) (hd : d.state = .faulted) : c.FaultLeaves cause d := by
  obtain ⟨hbody, hstaging, hentry, hlinks, -⟩ := h
  rcases hlinks with ⟨-, hlimit, -, -, hcause, hinRun, -⟩ | ⟨hidle, -⟩
  · have hnone : d.scheduleEntry = none := by
      rcases hentry with he | ⟨-, he⟩
      · rw [he, Stream.faultedWith_body]
      · exact he
    rw [Stream.faultedWith_body] at hlimit hcause hinRun hstaging hbody
    refine ⟨hd, hcause, hinRun, hlimit, hnone, ⟨?_, ?_, ?_, ?_, ?_⟩, ?_, ?_, ?_, hstaging⟩ <;> rw [hbody]
  · rw [hd] at hidle
    cases hidle

/-- What a fault leaves of its stream, its lane and its report (R19, R45). -/
theorem State.fault_leaves (cause : FaultCause) (p : Position) (h : ∀ o ∈ (s.stream n).stopOwed, o.reason ≠ .command) :
    (s.stream n).FaultLeaves cause ((s.fault n cause p).stream n) ∧ (s.fault n cause p).OwesFault n cause p
      ∧ (s.fault n cause p).port n = s.port n := by
  have hstream : (s.enterFaulted n cause p).stream n = (s.stream n).faultedWith cause p := by
    rw [State.enterFaulted_frame, State.stream_putStream]
  have hrests : ((s.enterFaulted n cause p).stream n).RestsFaulted := by
    rw [hstream, Stream.faultedWith_body]
    exact ⟨rfl, h⟩
  have howes : (s.enterFaulted n cause p).OwesFault n cause p := by
    refine .inr (.inr ?_)
    rw [hstream, Stream.faultedWith_body]
  obtain ⟨hsettles, hport⟩ := s.fault_settles n cause p
  obtain ⟨hfaulted, howes⟩ := State.settle_faulted hrests howes
  exact ⟨Stream.faultLeaves_of_settles hsettles hfaulted.1, howes, hport⟩

/-- What leaves the stream alone, and only adds to the list, leaves its fault reported. -/
theorem State.OwesFault.kept {t : State} {cause : FaultCause} {p : Position} (h : s.OwesFault n cause p)
    (hstream : t.stream n = s.stream n) (hheld : s.heldEvents <+: t.heldEvents) : t.OwesFault n cause p := by
  unfold State.OwesFault
  rw [hstream]
  exact h.imp_left fun k => hheld.subset k

theorem State.OwesFault.finish {cause : FaultCause} {p : Position} (h : s.OwesFault n cause p) :
    s.finish.OwesFault n cause p := by
  unfold State.OwesFault
  rw [State.finish_heldEvents, s.finish_body n]
  exact h

/-- The closing grants leave a stream in FAULTED as it is. -/
theorem Stream.FaultLeaves.finish {c : Stream} {cause : FaultCause} (h : c.FaultLeaves cause (s.stream n)) :
    c.FaultLeaves cause (s.finish.stream n) := by
  obtain ⟨b, hb⟩ := State.finish_halted (s := s) (n := n) (by simp [Stream.isTaking, h.state])
  rw [hb]
  exact ⟨h.state, h.faultCause, h.faultInRun, h.drainLimit, h.scheduleEntry, h.run, h.consumer, h.lastFrame, h.fifo, h.staging⟩

/-- The FIFO that the entry to STOPPING or FAULTED leaves: empty, or the places that outstanding writes carry (R66). -/
theorem Stream.emptied_output {c : Stream} (h : c.direction = .output) : c.emptied.fifo = [] := by
  rw [Stream.emptied, h]

theorem Stream.emptied_capture {c : Stream} (h : c.direction = .capture) : ∀ p ∈ c.emptied.fifo, p.writes ≠ 0 := by
  rw [Stream.emptied, h]
  intro p hp
  obtain ⟨q, hq, rfl⟩ := List.mem_map.1 hp
  have hwrites : q.writes ≠ 0 := by simpa using (List.mem_filter.1 hq).2
  split <;> exact hwrites

/-- The entry to FAULTED marks the reads of an OUTPUT stream (R66). -/
theorem State.enterFaulted_allMarked (cause : FaultCause) (p : Position) (h : (s.stream n).direction = .output) :
    (s.enterFaulted n cause p).AllMarked n := by
  rw [State.enterFaulted_eq]
  have hmarked := State.readsMarked_allMarked (s := s.handRemoval n cause.clearReason) (n := n)
    (by rw [State.handRemoval_stream]; exact h)
  exact hmarked

/-- The reads of a stream that faults stand marked at the end of the step (R66). -/
theorem State.readsDiscarded_of_fault {v t : State} {e : Option TransferId} {cause : FaultCause} {p : Position}
    {halted : StreamNo → Prop} (hdirection : (s.stream n).direction = .output → (v.stream n).direction = .output)
    (hbefore : ∀ e' r, e ≠ some e' → s.transfer e' = some r → v.transfer e' = some r ∨ v.transfer e' = some { r with discard := true })
    (hafter : State.MarksReads halted (v.fault n cause p) t) : s.readsDiscarded t.finish e n := by
  have hmarks : State.Beyond (· = n) (· = n) v (v.enterFaulted n cause p) :=
    (beyond_kept (· = n) v).enterFaulted rfl cause p (.refl _ _ v)
  have hsettle : State.MarksReads halted (v.enterFaulted n cause p) (v.fault n cause p) := .of_eq (State.settle_transfers _ n)
  refine State.readsDiscarded_of (v := v.enterFaulted n cause p) (fun e' r hne hr => ?_)
    (fun hd => v.enterFaulted_allMarked cause p (hdirection hd)) (hsettle.trans hafter)
  rcases hbefore e' r hne hr with hv | hv
  · exact (hmarks.transfers e' r hv).imp_right And.left
  · rcases hmarks.transfers e' _ hv with k | ⟨k, -⟩
    · exact .inr k
    · exact .inr k

end Sys2Proof.Machine
end

section
/-! The starved tick (R58, R60, R63, R66). -/

namespace Sys2Proof.Machine

variable {s v : State} {n : StreamNo}

/-- A settled stream has nothing to report. -/
theorem State.settle_of_isSettled (h : s.isSettled n = true) : s.settle n = s := by
  unfold State.settle settleFuel
  rw [Option.isNone_iff_eq_none.1 h]

/-- What the Command Unit is examined for leaves the streams alone. -/
theorem State.examineCommand_apart (on : StreamNo → Prop) (s : State) : State.Apart on s s.examineCommand :=
  (apart_kept on s).examineCommand (.refl on s)

/-- After an operation that leaves its stream settled, the examination of that stream leaves it alone. -/
theorem State.Apart.of_settled {on : StreamNo → Prop} {t : State} (h : s.isSettled n = true)
    (k : State.Apart on (s.settleStream n) t) : State.Apart on s t := by
  rw [State.settleStream, State.settle_of_isSettled h] at k
  exact (s.examineCommand_apart on).trans k

theorem Stream.taking_states {c : Stream} (h : c.isTaking = true) :
    c.state = .idle ∨ c.state = .armed ∨ c.state = .running ∨ c.state = .starved ∨ c.state = .draining := by
  simpa [Stream.isTaking, or_assoc] using h

theorem Stream.isTaking_of_running {c : Stream} (h : c.isRunning = true) : c.isTaking = true := by
  rcases Stream.running_states h with h | h | h <;> simp [Stream.isTaking, h]

theorem Stream.retireStatus_of_taking {c : Stream} (ht : c.isTaking = true) (b : Bool) (r : StagedRecord) : c.retireStatus b r
    = if r.invalid.isSome then some .rejected else if r.finished then some .done else none := by
  rcases Stream.taking_states ht with h | h | h | h | h <;> simp [Stream.retireStatus, Stream.isHalting, h]

/-- What a stream in a taking state rests on: its head record neither invalid nor finished, and no drain complete. -/
theorem Stream.rests_taking_iff {c : Stream} (ht : c.isTaking = true) (b : Bool) : c.Rests b ↔ c.faultOwed = none
    ∧ (∀ r ∈ c.staging.head?, r.outstanding = 0 → r.retired = none → r.invalid = none ∧ r.finished = false)
    ∧ c.stopOwed = none ∧ c.drainComplete = false := by
  have hstatus (r : StagedRecord) : c.retireStatus b r = none ↔ r.invalid = none ∧ r.finished = false := by
    rw [Stream.retireStatus_of_taking ht]
    cases r.invalid <;> cases r.finished <;> simp
  constructor
  · rintro ⟨hfault, hhead, hstop, hdrain, -⟩
    exact ⟨hfault, fun r hmem hout hret => (hstatus r).1 (hhead r hmem hout hret), hstop, hdrain⟩
  · rintro ⟨hfault, hhead, hstop, hdrain⟩
    refine ⟨hfault, fun r hmem hout hret => (hstatus r).2 (hhead r hmem hout hret), hstop, hdrain, fun hs => ?_⟩
    rw [Stream.isTaking, hs] at ht
    cases ht

/-- A stream in a taking state stays settled while its context stands. -/
theorem State.isSettled_of_taking {t : State} (h : s.isSettled n = true) (ht : (s.stream n).isTaking = true)
    (hstream : t.stream n = s.stream n) : t.isSettled n = true := by
  rw [State.isSettled_iff_rests] at h ⊢
  rw [hstream]
  exact h.imp_right fun hrests => (Stream.rests_taking_iff ht _).2 ((Stream.rests_taking_iff ht _).1 hrests)

/-- The state that a starved tick gives a stream of a run. -/
theorem Stream.starving_states {c : Stream} (hr : c.isRunning = true) :
    c.starving.isRunning = true ∧ (c.starving.state = .draining ↔ c.state = .draining) := by
  rcases Stream.running_states hr with h | h | h <;> simp [Stream.isRunning, Stream.starving, h]

/-- A stream of a run that rests goes on resting as it starves. -/
theorem Stream.Rests.starved {c : Stream} {b : Bool} (h : c.Rests b) (hr : c.isRunning = true) (b' : Bool) (begun : Nat) :
    ({ c.countStarved with beginMissed := begun } : Stream).starving.Rests b' := by
  obtain ⟨hfault, hhead, hstop, hdrain⟩ := (Stream.rests_taking_iff (Stream.isTaking_of_running hr) b).1 h
  obtain ⟨hrunning, hstate⟩ := Stream.starving_states (c := { c.countStarved with beginMissed := begun }) hr
  refine (Stream.rests_taking_iff (Stream.isTaking_of_running hrunning) b').2 ⟨hfault, hhead, hstop, ?_⟩
  rw [Stream.drainComplete] at hdrain ⊢
  rw [← hdrain, Bool.eq_iff_iff.2 ((beq_iff_eq.trans hstate).trans beq_iff_eq.symm)]
  rfl

/-- A starved tick leaves a settled stream settled, in HALT as otherwise. -/
theorem State.starvedTick_settled (t : Position) (h : s.isSettled n = true) (hr : (s.stream n).isRunning = true) :
    (s.starvedTick n t).isSettled n = true := by
  by_cases hpolicy : (s.stream n).policy = .halt
  · rw [State.starvedTick_halts t hpolicy]
    exact State.settle_isSettled _ n
  · obtain ⟨⟨begun, hstream⟩, -⟩ := State.starvedTick_leaves t hpolicy
    rw [State.isSettled_iff_rests] at h ⊢
    rw [hstream]
    exact h.imp id fun hrests => hrests.starved hr _ begun

/-- The stream has no frame for the tick: no ready head frame, or no record to assign to or no place (R57, R58, R60). -/
def Stream.NoFrame (c : Stream) : Prop :=
  c.direction = .output ∧ (∀ p ∈ c.fifo.head?, none ∈ p.bytes)
    ∨ c.direction = .capture ∧ (∀ r ∈ c.current, r.record.isGap = false ∧ 32 ≤ c.fifo.length)

theorem Place.not_isWhole {p : Place} (h : none ∈ p.bytes) : p.isWhole = false := by
  rw [Place.isWhole, List.all_eq_false]
  exact ⟨none, h, by simp⟩

/-- The tick of a run without a frame is starved (R58, R60). -/
theorem State.runTick_noFrame (t : Position) (bits : List Bool) (h : (s.stream n).NoFrame) :
    s.runTick n t bits = (s.openPeriod n (s.stream n).tailFrame).starvedTick n t := by
  unfold State.runTick Stream.tailFrame
  dsimp only
  rcases h with ⟨hd, hhead⟩ | ⟨hd, hcurrent⟩
  · rw [hd]
    dsimp only
    unfold State.outputTick
    dsimp only
    split
    · rename_i p rest hfifo
      rw [hfifo] at hhead
      rw [if_neg (by rw [Place.not_isWhole (hhead p rfl)]; decide)]
    · rfl
  · rw [hd]
    dsimp only
    unfold State.captureTick
    dsimp only
    split
    · rfl
    · rename_i r hr
      obtain ⟨hgap, hfull⟩ := hcurrent r hr
      refine if_neg ?_
      rw [hgap, Stream.freePlaces, Bool.false_or, decide_eq_true_eq, Nat.not_lt]
      exact Nat.sub_eq_zero_of_le hfull |>.le

/-- The closing grants leave a notice accepted, or dropped for want of a place. -/
theorem State.Noticed.finish {missed missed' : Nat} {ev : Event} {t : State} (h : s.Noticed missed missed' ev t) :
    s.Noticed missed missed' ev t.finish := by
  have hheld := t.finish_heldEvents
  have hlength : t.finish.events.holding.length = t.events.holding.length := by
    simpa [State.heldEvents] using congrArg List.length hheld
  unfold State.Noticed
  rw [hheld, hlength]
  exact h

/-- The streams' fields that the grants leave in place. -/
theorem Stream.grantsTo.capture_fifo {c d : Stream} (h : c.grantsTo d) (hd : c.direction = .capture) :
    d.fifo.map Place.apartFromGrants = c.fifo.map Place.apartFromGrants := by
  have hfifo := congrArg Stream.fifo h.1
  have hsame : d.direction = .capture := by rw [h.body]; exact hd
  simp only [Stream.apartFromGrants, hd, hsame] at hfifo
  exact hfifo

end Sys2Proof.Machine

open Sys2Proof Sys2Proof.Machine

/-- Settles O41: the stream counts the tick, and either faults or goes on STARVED with its notice. -/
theorem starvedTickCounts : Obligations.StarvedTickCounts := by
  intro s n lanes h htail hsettled c position hframe
  obtain ⟨v, t, hexec, hmeets, hafter⟩ := State.runsOn_tick h lanes
  obtain ⟨-, hrunning, -, -, -, -, hstarved, hrun⟩ := h
  rw [if_neg (by rw [htail]; decide), State.runTick_noFrame _ _ (by rw [hmeets.stream]; exact hframe), hmeets.stream] at hafter
  have hw : (v.openPeriod n (s.stream n).tailFrame).stream n = s.stream n := hmeets.stream
  have hlane : (v.openPeriod n (s.stream n).tailFrame).port n = s.periodOf n (s.stream n).tailFrame :=
    (v.openPeriod_port n _).trans (hmeets.lanePeriod rfl _)
  have hgrown : s.EventsGrow (v.openPeriod n (s.stream n).tailFrame) := hmeets.events.trans (.of_eq rfl)
  have htransfers : State.MarksReads (· ≠ n) s (v.openPeriod n (s.stream n).tailFrame) := hmeets.transfers.trans (.of_eq rfl)
  generalize v.openPeriod n (s.stream n).tailFrame = w at hafter hw hlane hgrown htransfers
  have hwsettled : w.isSettled n = true := State.isSettled_of_taking hsettled (Stream.isTaking_of_running hrunning) hw
  replace hafter := State.Apart.of_settled (State.starvedTick_settled position hwsettled (by rw [hw]; exact hrunning)) hafter
  have hport (hlanes : (w.starvedTick n position).port n = w.port n) : t.finish.port n = s.periodOf n
      (if c.direction = .capture then [] else if c.policy = .repeatFrame then c.lastFrame
        else List.replicate c.frameSize 0) := by
    rw [hafter.finish_port, ← Stream.tailFrame_eq, ← hlane, ← hlanes]
  refine ⟨_, hexec, ?_⟩
  by_cases hpolicy : c.policy = .halt
  · rw [State.starvedTick_halts position (by rw [hw]; exact hpolicy)] at hafter hport
    have hcounted : (w.modifyStream n Stream.countStarved).stream n = c.countStarved := by rw [State.stream_modifyStream, hw]
    obtain ⟨hleaves, howes, hlanes⟩ := (w.modifyStream n Stream.countStarved).fault_leaves (n := n) .underrun position (by
      rw [hcounted]
      intro o ho
      have hnone : c.stopOwed = none := by
        simpa [Stream.inTail] using (Bool.or_eq_false_iff.1 htail).1
      rw [show c.countStarved.stopOwed = c.stopOwed from rfl, hnone] at ho
      cases ho)
    have hsame : t.stream n = ((w.modifyStream n Stream.countStarved).fault n .underrun position).stream n :=
      hafter.beyond.stream n (not_not_intro rfl)
    rw [← hsame, hcounted] at hleaves
    obtain ⟨hstate, hcause, hinRun, -, -, ⟨hstart, hdata, hgap, hstarvedFrames, hstarveRun⟩, -, hlast, hfifo, -⟩ := hleaves.finish
    refine ⟨hstarvedFrames.trans (raise_of_ne hstarved), hstarveRun.trans (raise_of_ne hrun), hdata, hgap, hlast,
      hport (hlanes.trans rfl), fun _ => ⟨hstate, hcause, ?_, fun hd => ?_, fun hd => ?_, ?_, ?_⟩, fun hk => absurd hpolicy hk⟩
    · rw [hinRun]
      show (c.isRunning && !c.inTail) = true
      rw [hrunning, htail]
      rfl
    · rw [hfifo]
      exact Stream.emptied_output hd
    · rw [hfifo]
      exact Stream.emptied_capture hd
    · refine State.readsDiscarded_of_fault (fun hd => by rw [hcounted]; exact hd) (fun e r _ hr => ?_) hafter.beyond.transfers
      exact (htransfers e r hr).imp_right And.left
    · exact (howes.kept hsame hafter.beyond.events.heldEvents).finish
  · obtain ⟨⟨begun, hstream⟩, hfirst, hlater, hports, -, hgrow⟩ := State.starvedTick_leaves (s := w) (n := n) position (by
      rw [hw]; exact hpolicy)
    have hgrants := hafter.finish_grantsTo
    rw [hw] at hstream hfirst hlater
    have hbegun : (t.finish.stream n).beginMissed = ((w.starvedTick n position).stream n).beginMissed := by rw [hgrants.body]
    have hport' := hport (by rw [State.port, hports]; rfl)
    rw [hstream] at hgrants
    have hbody := hgrants.body
    refine ⟨?_, ?_, ?_, ?_, ?_, hport', fun hk => absurd hk hpolicy, fun _ => ⟨?_, fun hd => ?_, fun hd => ?_, ?_, ?_⟩⟩
    · rw [hbody]
      exact raise_of_ne hstarved
    · rw [hbody]
      exact raise_of_ne hrun
    · rw [hbody]
      rfl
    · rw [hbody]
      rfl
    · rw [hbody]
      rfl
    · rw [hbody]
      exact if_congr beq_iff_eq rfl rfl
    · exact hgrants.capture_fifo hd
    · exact hgrants.2.2.1 hd
    · intro hne
      rw [hbegun, hlater hne]
    · intro hzero
      have hnoticed := ((hfirst hzero).grow hgrown hafter.beyond.events).finish
      rw [← hbegun] at hnoticed
      exact hnoticed

end

section
/-! The record at the head of the list that retires, and a frame that moves through the whole tick (R40, R41, R57, R59). -/

namespace Sys2Proof.Machine

variable {s : State} {n : StreamNo}

/-! ### Reports that are made -/

/-- Report `e` of stream `n` has joined the list, or waits for a place (R41). -/
def State.HasReport (s : State) (n : StreamNo) (e : Event) : Prop :=
  e ∈ s.heldEvents ∨ (s.stream n).pendingReport = some ⟨e, false⟩

theorem State.HasReport.step {t : State} {e : Event} (h : s.HasReport n e) (ht : s.settleStep n = some t) : t.HasReport n e := by
  rcases h with hheld | hwaits
  · have hgrow : s.EventsGrow t := ((eventsGrow_kept s).reports (n := n) trivial).settleStep (.refl s) ht
    exact .inl (hgrow.heldEvents.subset hheld)
  · rw [State.settleStep_of_pending (by rw [hwaits]; nofun)] at ht
    cases ht

theorem State.HasReport.settle {t : State} {e : Event} (ht : s.settleStep n = some t) (h : t.HasReport n e) :
    (s.settle n).HasReport n e := by
  unfold State.settle settleFuel
  rw [ht]
  exact settleFuel_keeps (P := fun u => u.HasReport n e) (fun _ _ hu hv => hu.step hv) _ h

theorem State.HasReport.kept {t : State} {e : Event} (h : s.HasReport n e) (hstream : t.stream n = s.stream n)
    (hheld : s.heldEvents <+: t.heldEvents) : t.HasReport n e := by
  unfold State.HasReport
  rw [hstream]
  exact h.imp_left fun k => hheld.subset k

theorem State.HasReport.finish {e : Event} (h : s.HasReport n e) : s.finish.HasReport n e := by
  unfold State.HasReport
  rw [State.finish_heldEvents, s.finish_body n]
  exact h

/-- A head record that can retire does so in the next examination (R40, R41). -/
theorem State.settle_retires {r : StagedRecord} {st : RetiredStatus} (hp : (s.stream n).pendingReport = none)
    (hf : (s.stream n).faultOwed = none) (hr : s.retirableHead n = some (r, st)) :
    (s.settle n).HasReport n (bufferDone n r st) := by
  obtain ⟨rest, hstaging, -⟩ := State.retirableHead_eq_some hr
  obtain ⟨hstream, hheld, -⟩ := State.retireHead_leaves st hstaging
  refine State.HasReport.settle (State.settleStep_retire hp hf hr) ?_
  unfold State.HasReport
  rw [hstream, hheld]
  cases s.roomFor (streamProducer n) with
  | true => exact .inl (by simp)
  | false => exact .inr rfl

/-! ### Ring indices -/

/-- Two staged records of one ring index are one record (R34). -/
theorem Stream.eq_of_ringIndex {c : Stream} (h : c.inRingOrder = true) (hlen : c.staging.length ≤ 16) {r x : StagedRecord}
    (hr : r ∈ c.staging) (hx : x ∈ c.staging) (heq : x.ringIndex = r.ringIndex) : x = r := by
  rw [Stream.inRingOrder, Bool.and_eq_true, Bool.and_eq_true, decide_eq_true_eq] at h
  obtain ⟨⟨hsize, hlt⟩, hchain⟩ := h
  have horder : ringChain c.ringSize (c.staging.map fun r => r.ringIndex) :=
    (List.isChain_append.1 ((ringChain_iff _ _).2 hchain)).1
  have hnodup := ringChain_nodup horder
    (fun i hi => by simpa using List.all_eq_true.1 hlt i (List.mem_append_left _ hi)) (by simpa using hlen.trans hsize)
  exact List.inj_on_of_nodup_map hnodup hx hr heq

theorem Stream.recordAt_of_mem {c : Stream} (h : c.inRingOrder = true) (hlen : c.staging.length ≤ 16) {r : StagedRecord}
    (hr : r ∈ c.staging) : c.recordAt r.ringIndex = some r := by
  cases hx : c.recordAt r.ringIndex with
  | none => simpa using List.find?_eq_none.1 hx r hr
  | some x =>
    have hring : x.ringIndex = r.ringIndex := by simpa using List.find?_some hx
    rw [Stream.eq_of_ringIndex h hlen hr (List.mem_of_find?_eq_some hx) hring]

/-- The record of a ring index after a change of it: what the change makes of the one that stood there. -/
theorem Stream.modifyRecord_of_mem {c : Stream} (h : c.inRingOrder = true) (hlen : c.staging.length ≤ 16) {r₀ r : StagedRecord}
    {f : StagedRecord → StagedRecord} (hf : ∀ r, (f r).ringIndex = r.ringIndex) (hr₀ : r₀ ∈ c.staging)
    (hr : r ∈ (c.modifyRecord r₀.ringIndex f).staging) (hring : r.ringIndex = r₀.ringIndex) : r = f r₀ := by
  obtain ⟨x, hx, rfl⟩ := List.mem_map.1 hr
  have hsame : x.ringIndex = r₀.ringIndex := by
    split at hring
    · rwa [hf] at hring
    · exact hring
  rw [if_pos (beq_iff_eq.2 hsame), Stream.eq_of_ringIndex h hlen hr₀ hx hsame]

theorem Stream.modifyRecord_head {c : Stream} {r₀ : StagedRecord} {ring : Nat} {f : StagedRecord → StagedRecord}
    (h : c.staging.head? = some r₀) (hring : r₀.ringIndex = ring) : (c.modifyRecord ring f).staging.head? = some (f r₀) := by
  show (c.staging.map _).head? = _
  rw [List.head?_map, h, Option.map_some, if_pos (beq_iff_eq.2 hring)]

/-! ### What the closing grants leave of the records -/

/-- A staged record but for its transfers, its fetch progress where it is an OUTPUT one, and its retirement. -/
def StagedRecord.core (d : Direction) (r : StagedRecord) : StagedRecord := { r.apartFromGrants d with retired := none }

theorem StagedRecord.core_unretired (d : Direction) (r : StagedRecord) : ({ r with retired := none } : StagedRecord).core d = r.core d := by
  cases d <;> rfl

/-- The records left by an examination and the closing grants are records of the list before. -/
theorem Stream.core_of_settles {c d e : Stream} (h : c.Settles d) (k : d.grantsTo e) {r : StagedRecord} (hr : r ∈ e.staging) :
    ∃ x ∈ c.staging, r.core c.direction = x.core c.direction := by
  have hdirection : d.direction = c.direction := by rw [h.body]
  have hgranted : e.staging.map (StagedRecord.apartFromGrants c.direction) = d.staging.map (StagedRecord.apartFromGrants c.direction) := by
    have hstaging := congrArg Stream.staging k.1
    have he : e.direction = d.direction := by rw [k.body]
    simp only [Stream.apartFromGrants, he, hdirection] at hstaging
    exact hstaging
  obtain ⟨y, hy, hyr⟩ := List.mem_map.1 (hgranted ▸ List.mem_map_of_mem hr)
  obtain ⟨x, hx, hxy⟩ := List.mem_map.1 (h.staging.subset (List.mem_map_of_mem hy))
  refine ⟨x, hx, ?_⟩
  calc r.core c.direction = y.core c.direction := congrArg (fun z : StagedRecord => { z with retired := none }) hyr.symm
    _ = x.core c.direction := by rw [← StagedRecord.core_unretired _ y, ← hxy, StagedRecord.core_unretired]

/-! ### A frame that moves, through the whole tick -/

/-- State `t` is what the step leaves once stream `n` has moved a frame at position `p`, its context then being `d`: the lane
and the counts are those of the frame, its notices were offered, and what can retire then has (R40, R57, R59). -/
structure State.FrameMoved (s : State) (n : StreamNo) (p : Position) (marks : Option (BitVec 32)) (d : Stream) (lane : Port)
    (t : State) : Prop where
  port : t.port n = lane
  lastFrame : (t.stream n).lastFrame = d.lastFrame
  startPosition : (t.stream n).startPosition = d.startPosition
  dataFrames : (t.stream n).dataFrames = d.dataFrames
  gapFrames : (t.stream n).gapFrames = d.gapFrames
  starvedFrames : (t.stream n).starvedFrames = d.starvedFrames
  starveRun : (t.stream n).starveRun = 0
  state : (t.stream n).state = (if d.state = .starved then .running else d.state) ∨ (t.stream n).state = .idle
  outputFifo : d.direction = .output → d.fifo <+: (t.stream n).fifo
  captureFifo : d.direction = .capture → (t.stream n).fifo.map Place.apartFromGrants = d.fifo.map Place.apartFromGrants
  marked : ∀ tag, marks = some tag → s.Noticed d.markMissed (t.stream n).markMissed (.mark n tag p d.markMissed) t
  unmarked : marks = none → (t.stream n).markMissed = d.markMissed
  starved : d.starveRun ≠ 0 → s.Noticed d.endMissed (t.stream n).endMissed (.starveEnd n p d.starveRun d.endMissed) t
  unstarved : d.starveRun = 0 → (t.stream n).endMissed = d.endMissed
  staging : ∀ r ∈ (t.stream n).staging, ∃ x ∈ d.staging, r.core d.direction = x.core d.direction
  retires : ∀ r, d.staging.head? = some r → r.invalid = none → r.finished = true → r.retired = none → r.outstanding = 0 →
    d.pendingReport = none → d.faultOwed = none → t.HasReport n (bufferDone n r .done)

theorem Stream.isRunning_recovered {c : Stream} (h : c.isRunning = true) : c.recovered.isRunning = true := by
  rcases Stream.running_states h with h | h | h <;> simp [Stream.isRunning, Stream.recovered, h]

theorem State.FrameMoves.moved {v u t : State} {p : Position} {marks : Option (BitVec 32)} {d : Stream} {lane : Port}
    (h : v.FrameMoves n p marks d lane u) (hbefore : s.EventsGrow v) (hd : d.isRunning = true)
    (hafter : State.Apart (· ≠ n) (u.settleStream n) t) : s.FrameMoved n p marks d lane t.finish := by
  obtain ⟨w, hwevents, -, hwport, hmoves⟩ := h
  have hgrow : s.EventsGrow w := hbefore.trans (.of_eq hwevents)
  have K := apart_kept (fun _ => True) u
  have hsettled : u.EventsGrow t := (K.examineCommand (K.settle trivial (.refl _ u))).beyond.events.trans hafter.beyond.events
  obtain ⟨⟨mark, starve, hbody⟩, hmarked, hunmarked, hstarved, hunstarved, hports, -, -⟩ := hmoves
  have hopen : (u.stream n).isOpen := by
    rw [hbody]
    exact Stream.isOpen_recovered (Stream.isOpen_of_running hd)
  obtain ⟨hsettles, hlane⟩ := State.settleStream_open hopen.1 hopen.2
  have hgrants := hafter.finish_grantsTo
  have hstate : (u.stream n).state = if d.state = .starved then .running else d.state := by
    rw [hbody]
    exact if_congr beq_iff_eq rfl rfl
  have hmarkMissed : (t.finish.stream n).markMissed = (u.stream n).markMissed := by rw [hgrants.body, hsettles.body]
  have hendMissed : (t.finish.stream n).endMissed = (u.stream n).endMissed := by rw [hgrants.body, hsettles.body]
  constructor
  case port => exact hafter.finish_port.trans (hlane.trans ((congrArg (·.get n) hports).trans hwport))
  case lastFrame => rw [hgrants.body, hsettles.body, hbody]; rfl
  case startPosition => rw [hgrants.body, hsettles.body, hbody]; rfl
  case dataFrames => rw [hgrants.body, hsettles.body, hbody]; rfl
  case gapFrames => rw [hgrants.body, hsettles.body, hbody]; rfl
  case starvedFrames => rw [hgrants.body, hsettles.body, hbody]; rfl
  case starveRun => rw [hgrants.body, hsettles.body, hbody]; rfl
  case state =>
    rw [hgrants.body, ← hstate]
    exact hsettles.links.imp And.left And.left
  case outputFifo =>
    intro houtput
    have hfifo : ((u.settleStream n).stream n).fifo = d.fifo := by rw [hsettles.body, hbody]; rfl
    have hdirection : ((u.settleStream n).stream n).direction = d.direction := by rw [hsettles.body, hbody]; rfl
    rw [← hfifo]
    exact hgrants.2.2.1 (hdirection.trans houtput)
  case captureFifo =>
    intro hcapture
    have hfifo : ((u.settleStream n).stream n).fifo = d.fifo := by rw [hsettles.body, hbody]; rfl
    have hdirection : ((u.settleStream n).stream n).direction = d.direction := by rw [hsettles.body, hbody]; rfl
    rw [← hfifo]
    exact hgrants.capture_fifo (hdirection.trans hcapture)
  case marked =>
    intro tag htag
    rw [hmarkMissed]
    exact ((hmarked tag htag).grow hgrow hsettled).finish
  case unmarked => exact fun hnone => hmarkMissed.trans (hunmarked hnone)
  case starved =>
    intro hrun
    rw [hendMissed]
    exact ((hstarved hrun).grow hgrow hsettled).finish
  case unstarved => exact fun hrun => hendMissed.trans (hunstarved hrun)
  case staging =>
    intro r hr
    have hsame : (u.stream n).staging = d.staging ∧ (u.stream n).direction = d.direction := by rw [hbody]; exact ⟨rfl, rfl⟩
    rw [← hsame.1, ← hsame.2]
    exact Stream.core_of_settles hsettles hgrants hr
  case retires =>
    intro r hr hvalid hfinished hretired hout hp hf
    have hretirable : u.retirableHead n = some (r, .done) := by
      refine State.retirableHead_of_head (by rw [hbody]; exact hr) ?_
      rw [State.statusOf, if_pos ⟨hout, hretired⟩]
      have hrunning : (u.stream n).isRunning = true := by
        rw [hbody]
        exact Stream.isRunning_recovered hd
      rw [Stream.retireStatus_of_taking (Stream.isTaking_of_running hrunning), hvalid, hfinished]
      rfl
    have hreport := State.settle_retires (by rw [hbody]; exact hp) (by rw [hbody]; exact hf) hretirable
    have hexamined := (u.settle n).examineCommand_apart (· ≠ n)
    refine State.HasReport.finish (hreport.kept ?_ (hexamined.beyond.events.trans hafter.beyond.events).heldEvents)
    exact (hafter.beyond.stream n (not_not_intro rfl)).trans (hexamined.beyond.stream n (not_not_intro rfl))

end Sys2Proof.Machine
end

section
/-! The ticks that move a frame: OUTPUT (R57) and CAPTURE (R59). -/

namespace Sys2Proof.Machine

variable {s v : State} {n : StreamNo}

theorem Place.isWhole_of {p : Place} (h : ∀ b ∈ p.bytes, b ≠ none) : p.isWhole = true := by
  rw [Place.isWhole, List.all_eq_true]
  exact fun b hb => Option.isSome_iff_ne_none.2 (h b hb)

/-- The tick of a run on an OUTPUT stream whose head frame is ready (R57). -/
theorem State.runTick_passes {p : Place} {rest : List Place} (t : Position) (bits : List Bool)
    (hd : (s.stream n).direction = .output) (hfifo : (s.stream n).fifo = p :: rest) (hwhole : p.isWhole = true) :
    s.runTick n t bits = s.passFrame n t p rest := by
  unfold State.runTick State.outputTick
  dsimp only
  rw [hd, hfifo]
  exact if_pos hwhole

/-- The tick of a run on a CAPTURE stream with a record to serve (R59). -/
theorem State.runTick_assigns {r : StagedRecord} (t : Position) (bits : List Bool) (hd : (s.stream n).direction = .capture)
    (hr : (s.stream n).current = some r) (hroom : r.record.isGap = true ∨ (s.stream n).fifo.length < 32) :
    s.runTick n t bits = (s.openPeriod n []).assignFrame n t r (s.delivered n bits) := by
  have hcurrent : ((s.openPeriod n []).stream n).current = some r := hr
  unfold State.runTick State.captureTick
  dsimp only
  rw [hd]
  dsimp only
  rw [hcurrent]
  refine if_pos ?_
  rw [Bool.or_eq_true, decide_eq_true_eq]
  exact hroom.imp_right Nat.sub_pos_of_lt

/-- The tag of a MARK notice is there exactly for the first frame of a flagged record (R38). -/
theorem StagedRecord.markTag_eq_some {r : StagedRecord} {first : Bool} (hfirst : first = true) (hflag : r.record.markFlag = true) :
    r.markTag first = some r.record.tag := by
  rw [StagedRecord.markTag, hfirst, hflag]
  rfl

theorem StagedRecord.markTag_eq_none {r : StagedRecord} {first : Bool} (h : first = false ∨ r.record.markFlag = false) :
    r.markTag first = none := by
  unfold StagedRecord.markTag
  rcases h with h | h <;> simp [h]

/-- What the core of a record holds: its index, what it has moved and where it stands. -/
theorem StagedRecord.of_core_eq {d : Direction} {r x : StagedRecord} (h : r.core d = x.core d) :
    r.ringIndex = x.ringIndex ∧ r.moved = x.moved ∧ r.firstPosition = x.firstPosition ∧ r.finished = x.finished
      ∧ (d = .capture → r.progress = x.progress) := by
  cases d with
  | output =>
    refine ⟨?_, ?_, ?_, ?_, nofun⟩
    · have k := congrArg StagedRecord.ringIndex h; exact k
    · have k := congrArg StagedRecord.moved h; exact k
    · have k := congrArg StagedRecord.firstPosition h; exact k
    · have k := congrArg StagedRecord.finished h; exact k
  | capture =>
    refine ⟨?_, ?_, ?_, ?_, fun _ => ?_⟩
    · have k := congrArg StagedRecord.ringIndex h; exact k
    · have k := congrArg StagedRecord.moved h; exact k
    · have k := congrArg StagedRecord.firstPosition h; exact k
    · have k := congrArg StagedRecord.finished h; exact k
    · have k := congrArg StagedRecord.progress h; exact k

/-- The record that the moved frame belongs to, as the step leaves it. -/
theorem State.FrameMoved.record {t : State} {p : Position} {marks : Option (BitVec 32)} {c d : Stream} {lane : Port}
    (h : s.FrameMoved n p marks d lane t) (horder : c.inRingOrder = true) (hlen : c.staging.length ≤ 16) {r₀ r : StagedRecord}
    {f : StagedRecord → StagedRecord} (hf : ∀ r, (f r).ringIndex = r.ringIndex) (hr₀ : r₀ ∈ c.staging)
    (hd : d.staging = (c.modifyRecord r₀.ringIndex f).staging) (hr : r ∈ (t.stream n).staging)
    (hring : r.ringIndex = r₀.ringIndex) : r.core d.direction = (f r₀).core d.direction := by
  obtain ⟨x, hx, hcore⟩ := h.staging r hr
  obtain ⟨hindex, -⟩ := StagedRecord.of_core_eq hcore
  rw [hcore, Stream.modifyRecord_of_mem horder hlen hf hr₀ (hd ▸ hx) (hindex.symm.trans hring)]

/-- The tick in a run of a stream that moves a frame: the records, the counts and the notices that it leaves. -/
theorem State.tick_moves {lanes : List (List Bool)} {marks : Option (BitVec 32)} {d : Stream} {lane : Port}
    (h : s.runsOn n) (htail : (s.stream n).inTail = false) (hd : d.isRunning = true)
    (hmoves : ∀ v, s.MeetsTick (s.stream n).generator n v → v.FrameMoves n ((s.generator (s.stream n).generator).position + 1)
      marks d lane (v.runTick n ((s.generator (s.stream n).generator).position + 1) (lanes.getD n.val []))) :
    ∃ t, exec (.tick (s.stream n).generator lanes) s = .next t
      ∧ s.FrameMoved n ((s.generator (s.stream n).generator).position + 1) marks d lane t := by
  obtain ⟨v, t, hexec, hmeets, hafter⟩ := State.runsOn_tick h lanes
  rw [if_neg (by rw [htail]; decide)] at hafter
  exact ⟨_, hexec, (hmoves v hmeets).moved hmeets.events hd hafter⟩

end Sys2Proof.Machine

open Sys2Proof Sys2Proof.Machine

/-- Settles O39: the head frame passes the lane, and its record counts it and may retire. -/
theorem outputTickPasses : Obligations.OutputTickPasses := by
  intro s n lanes p rest h htail hd hfifo hwhole c position frame total first
  obtain ⟨-, hrunning, -, -, hdata, hgap, -⟩ := id h
  obtain ⟨t, hexec, hmoved⟩ := State.tick_moves (lanes := lanes) (marks := (c.recordAt p.ring).bind fun r => r.markTag (r.moved == 0))
    (d := c.passed position p rest) (lane := s.periodOf n frame) h htail hrunning fun v hmeets => by
      rw [State.runTick_passes _ _ (by rw [hmeets.stream]; exact hd) (by rw [hmeets.stream]; exact hfifo) (Place.isWhole_of hwhole)]
      have hleaves := v.passFrame_leaves n position p rest
      rw [hmeets.stream, hmeets.lanePeriod rfl] at hleaves
      exact hleaves
  have htotal (r : StagedRecord) : r.record.totalFrames = total r := congrArg _ (if_congr beq_iff_eq rfl rfl)
  refine ⟨t, hexec, hmoved.port, hmoved.lastFrame, hmoved.outputFifo hd, ?_, ?_, hmoved.starvedFrames, hmoved.starveRun,
    hmoved.state, hmoved.unstarved, hmoved.starved, ?_⟩
  · rw [hmoved.dataFrames, ← raise_of_ne (k := .dataFrames) hdata]
    rfl
  · rw [hmoved.gapFrames, ← raise_of_ne (k := .gapFrames) hgap]
    rfl
  · intro horder hlen r₀ hr₀ hring
    have hrecord : c.recordAt p.ring = some r₀ := hring ▸ Stream.recordAt_of_mem horder hlen hr₀
    have hmarks : ((c.recordAt p.ring).bind fun r => r.markTag (r.moved == 0)) = r₀.markTag (r₀.moved == 0) := by rw [hrecord]; rfl
    rw [hmarks] at hmoved
    refine ⟨fun r hr hringIndex => ?_, fun hfirst hflag => ?_, fun hnot => ?_, fun hhead hlast hvalid hretired hout hp hf => ?_⟩
    · have hcore := hmoved.record horder hlen (f := fun r => r.passFrame position) (fun _ => rfl) hr₀ (by rw [hring]; rfl) hr
        (hringIndex.trans hring.symm)
      obtain ⟨-, hmovedFrames, hfirst, hfinished, -⟩ := StagedRecord.of_core_eq hcore
      refine ⟨hmovedFrames, hfirst.trans (if_congr beq_iff_eq rfl rfl), hfinished.trans ?_⟩
      rw [← htotal r₀]
      rfl
    · exact hmoved.marked _ (StagedRecord.markTag_eq_some (beq_iff_eq.2 hfirst) hflag)
    · exact hmoved.unmarked (StagedRecord.markTag_eq_none (hnot.imp_left fun k => by simpa using k))
    · have hreport := hmoved.retires (r₀.passFrame position) (Stream.modifyRecord_head hhead hring) hvalid ?_ hretired hout hp hf
      · rw [← hring]
        have hfirst : (r₀.passFrame position).firstPosition = first r₀ := if_congr beq_iff_eq rfl rfl
        rw [← hfirst]
        exact hreport
      · rw [← htotal r₀] at hlast
        rw [StagedRecord.passFrame, hlast, beq_self_eq_true, Bool.or_true]

/-- Settles O40: the lane's frame is assigned, and its record counts it and may retire. -/
theorem captureTickAssigns : Obligations.CaptureTickAssigns := by
  intro s n lanes r₀ h htail hd hr₀ hroom c position gap frame place first ends
  obtain ⟨-, hrunning, -, -, hdata, hgap, -⟩ := id h
  obtain ⟨t, hexec, hmoved⟩ := State.tick_moves (lanes := lanes) (marks := r₀.markTag (r₀.progress == 0))
    (d := c.assigned position r₀ frame) (lane := s.periodOf n []) h htail hrunning fun v hmeets => by
      rw [State.runTick_assigns _ _ (by rw [hmeets.stream]; exact hd) (by rw [hmeets.stream]; exact hr₀)
        (by rw [hmeets.stream]; exact hroom)]
      have hleaves := (v.openPeriod n []).assignFrame_leaves n position r₀ (v.delivered n (lanes.getD n.val []))
      have hframe : v.delivered n (lanes.getD n.val []) = frame := by
        rw [State.delivered, hmeets.stream, hmeets.port]
        rfl
      rw [v.openPeriod_port n [], hmeets.lanePeriod rfl, hframe] at hleaves
      have hstream : (v.openPeriod n []).stream n = s.stream n := hmeets.stream
      rw [hstream] at hleaves
      rw [hframe]
      obtain ⟨w, hevents, htransfers, hport, hmoves⟩ := hleaves
      exact ⟨w, hevents, htransfers, hport, hmoves⟩
  refine ⟨t, hexec, hmoved.port, (hmoved.captureFifo hd).trans ?_, ?_, ?_, hmoved.starvedFrames, hmoved.starveRun, hmoved.state,
    hmoved.unstarved, hmoved.starved, fun hfirst hflag => ?_, fun hnot => ?_, fun horder hlen r hr hringIndex => ?_,
    fun hhead hends hretired hout hp hf => ?_⟩
  · refine congrArg (List.map Place.apartFromGrants) ?_
    show (if r₀.record.isGap then c.fifo else c.fifo ++ [place]) = c.fifo ++ if r₀.record.isGap then [] else [place]
    cases r₀.record.isGap with
    | true => exact (List.append_nil _).symm
    | false => rfl
  · rw [hmoved.dataFrames, ← raise_of_ne (k := .dataFrames) hdata]
    rfl
  · rw [hmoved.gapFrames, ← raise_of_ne (k := .gapFrames) hgap]
    rfl
  · exact hmoved.marked _ (StagedRecord.markTag_eq_some (beq_iff_eq.2 hfirst) hflag)
  · exact hmoved.unmarked (StagedRecord.markTag_eq_none (hnot.imp_left fun k => by simpa using k))
  · have hcore := hmoved.record horder hlen (f := fun r => r.assignFrame position) (fun _ => rfl)
      (List.mem_of_find?_eq_some hr₀) rfl hr hringIndex
    obtain ⟨-, hmovedFrames, hfirst, hfinished, hprogress⟩ := StagedRecord.of_core_eq hcore
    exact ⟨hprogress hd, hfirst.trans (if_congr beq_iff_eq rfl rfl), hmovedFrames, hfinished⟩
  · have hvalid : r₀.invalid = none := by
      have hopen := List.find?_some hr₀
      simpa using (Bool.and_eq_true_iff.1 hopen).1
    have hreport := hmoved.retires (r₀.assignFrame position) (Stream.modifyRecord_head hhead rfl) hvalid ?_ hretired hout hp hf
    · have hgap : r₀.record.isGap = true := (Bool.and_eq_true_iff.1 hends).1
      have hmovedFrames : (r₀.assignFrame position).moved = r₀.moved + 1 := if_pos hgap
      have hfirst : (r₀.assignFrame position).firstPosition = first := if_congr beq_iff_eq rfl rfl
      rw [← hmovedFrames, ← hfirst]
      exact hreport
    · show (r₀.finished || ends) = true
      rw [hends, Bool.or_true]

end

section
/-! What an examination leaves of a stream in any state, and of the removal claims; a stream's failed transfer (R17, R19, R56). -/

namespace Sys2Proof.Machine

variable {s : State} {n : StreamNo}

/-! ### The removal claims -/

theorem offerClosingFuel_removals (k : Nat) (s : State) : (offerClosingFuel k s).schedule.removals = s.schedule.removals := by
  induction k generalizing s with
  | zero => rfl
  | succ k ih =>
    unfold offerClosingFuel
    split
    · rfl
    · split
      · exact ih _
      · rfl

theorem State.offerSchedule_removals (s : State) : s.offerSchedule.schedule.removals = s.schedule.removals :=
  offerClosingFuel_removals _ s

theorem State.examineEntry_removals (s : State) (id : EntryId) : (s.examineEntry id).schedule.removals = s.schedule.removals := by
  unfold State.examineEntry
  split
  · rfl
  · split
    · exact State.offerSchedule_removals _
    · rfl

theorem State.answerEntry_removals (s : State) (id : EntryId) (n : StreamNo) :
    (s.answerEntry id n).schedule.removals = s.schedule.removals := by
  unfold State.answerEntry
  split
  · rfl
  · split
    · exact State.examineEntry_removals _ id
    · rfl

/-- The Command Unit's examination leaves the Schedule Unit alone. -/
theorem State.examineCommand_schedule (s : State) : s.examineCommand.schedule = s.schedule := by
  unfold State.examineCommand
  split
  · split
    · rfl
    · unfold State.produceCmdDone
      split
      · rfl
      · dsimp only
        split <;> rfl
  · rfl

/-- A stream outside a run hands over no removal claim as it reports (R13). -/
theorem State.settle_removals (h : (s.stream n).isRunning = false) : (s.settle n).schedule.removals = s.schedule.removals := by
  have K : State.KeptByReports n (fun t => t.schedule.removals = s.schedule.removals ∧ (t.stream n).isRunning = false) := by
    constructor
    case accept => exact fun _ _ ht _ => ht
    case stream =>
      intro t d ⟨hremovals, hrunning⟩ hd
      rw [State.stream_putStream]
      exact ⟨hremovals, Bool.eq_false_iff.2 fun hr => by simp [hd.running hr] at hrunning⟩
    case close =>
      intro t ht _ _
      rw [State.stream_putStream]
      exact ⟨ht.1, rfl⟩
    case quiet => exact fun _ ht _ => ht
    case arrived => exact fun _ ht => ht
    case hand =>
      intro t r ⟨_, hrunning⟩ hr
      rw [hr] at hrunning
      cases hrunning
    case answer =>
      intro t id ⟨hremovals, hrunning⟩ _
      refine ⟨(t.answerEntry_removals id n).trans hremovals, ?_⟩
      have hsame : (t.answerEntry id n).stream n = t.stream n := (t.answerEntry_touches id n).stream n fun k => k
      rw [hsame]
      exact hrunning
  exact (K.settle ⟨rfl, h⟩).1

/-! ### An examination from any state -/

theorem closedStream_settles {d : Stream} (h : closedStream.Settles d) : d.state = .closed ∧ d.staging = [] := by
  constructor
  · rcases h.links with ⟨hs, -⟩ | ⟨-, -, hc⟩
    · exact hs
    · rcases hc (by decide) with hr | hr <;> cases hr
  · have hnil : unretired d.staging = [] := List.suffix_nil.1 h.staging
    exact List.map_eq_nil_iff.1 hnil

/-- Each report of a stream in STOPPING closes it, or only reports. -/
theorem closes_keptByReports (s : State) (n : StreamNo) : State.KeptByReports n (fun t =>
    (s.stream n).state = .stopping ∧ closedStream.Settles (t.stream n) ∨ (s.stream n).Settles (t.stream n)) := by
  constructor
  case accept => exact fun _ _ ht _ => ht
  case stream =>
    intro t d ht hd
    rw [State.stream_putStream]
    exact ht.imp (fun k => ⟨k.1, k.2.trans hd⟩) fun k => k.trans hd
  case close =>
    intro t ht hends _
    rw [State.stream_putStream]
    simp only [State.stoppingEnds, Bool.and_eq_true, beq_iff_eq] at hends
    obtain ⟨⟨hstopping, -⟩, -⟩ := hends
    refine .inl ⟨?_, .refl _⟩
    rcases ht with ⟨hs, -⟩ | hsettles
    · exact hs
    · rcases hsettles.links with ⟨hsame, -⟩ | ⟨hidle, -⟩
      · exact hsame.symm.trans hstopping
      · rw [hstopping] at hidle
        cases hidle
  case quiet => exact fun _ ht _ => ht
  case arrived => exact fun _ ht => ht
  case hand =>
    intro t r ht _
    rw [State.handRemoval_frame]
    exact ht
  case answer =>
    intro t id ht _
    have hsame : (t.answerEntry id n).stream n = t.stream n := (t.answerEntry_touches id n).stream n fun k => k
    rw [hsame]
    exact ht

/-- An examination ends STOPPING in CLOSED, or it only reports. -/
theorem State.settle_closes (s : State) (n : StreamNo) :
    (s.stream n).state = .stopping ∧ ((s.settle n).stream n).state = .closed ∧ ((s.settle n).stream n).staging = []
      ∨ (s.stream n).Settles ((s.settle n).stream n) :=
  ((closes_keptByReports s n).settle (.inr (.refl _))).imp (fun k => ⟨k.1, closedStream_settles k.2⟩) id

theorem State.settleStream_stream (s : State) (n : StreamNo) : (s.settleStream n).stream n = (s.settle n).stream n :=
  ((s.settle n).examineCommand_apart (· ≠ n)).beyond.stream n (not_not_intro rfl)

theorem State.settleStream_removals (s : State) (n : StreamNo) :
    (s.settleStream n).schedule.removals = (s.settle n).schedule.removals := by
  rw [State.settleStream, State.examineCommand_schedule]

/-- A stream that takes no records stays in its state, or ends STOPPING. -/
theorem State.settle_halted (h : (s.stream n).isTaking = false) (hreports : (s.stream n).reportConsistent = true) :
    ((s.settle n).stream n).state = (s.stream n).state
      ∨ (s.stream n).state = .stopping
        ∧ (((s.settle n).stream n).state = .idle ∨ ((s.settle n).stream n).state = .closed) := by
  rcases s.settle_closes n with ⟨hstopping, hclosed, -⟩ | hsettles
  · exact .inr ⟨hstopping, .inr hclosed⟩
  · rcases hsettles.links with ⟨hsame, -⟩ | ⟨hidle, -, hfrom⟩
    · exact .inl hsame
    · refine .inr ⟨(hfrom hreports).resolve_left ?_, .inl hidle⟩
      rw [Stream.isRunning_of_not_taking h]
      exact Bool.false_ne_true

/-! ### A transfer that fails -/

/-- Context `d` is `c` once transfer `t` has failed: its FIFO and its records may have changed, and the record that the
transfer served is marked (R56, R62). -/
structure Stream.FailedBy (c : Stream) (t : Transfer) (d : Stream) : Prop where
  body : d = { c with fifo := d.fifo, staging := d.staging }
  marks : (∃ n, t.requester = .streamData n) → ∀ ring pass offset, t.item = .frames ring pass offset →
    ∀ r ∈ d.staging, r.ringIndex = ring → r.failed = true

/-- A change of the record of a ring index, where it stands. -/
theorem Stream.mem_modifyRecord {c : Stream} {ring : Nat} {f : StagedRecord → StagedRecord} {r : StagedRecord}
    (hr : r ∈ (c.modifyRecord ring f).staging) (hring : r.ringIndex = ring) (hf : ∀ r, (f r).ringIndex = r.ringIndex) :
    ∃ x ∈ c.staging, r = f x := by
  obtain ⟨x, hx, rfl⟩ := List.mem_map.1 hr
  refine ⟨x, hx, if_pos (beq_iff_eq.2 ?_)⟩
  split at hring
  · rwa [hf] at hring
  · exact hring

theorem Stream.failRead_failedBy (c : Stream) (t : Transfer) : c.FailedBy t (c.failRead t) := by
  refine ⟨?_, fun _ ring pass offset hitem r hr hring => ?_⟩
  · unfold Stream.failRead
    split <;> rfl
  · rw [Stream.failRead, hitem] at hr
    obtain ⟨x, -, rfl⟩ := Stream.mem_modifyRecord hr hring fun _ => rfl
    rfl

theorem Stream.finishWrite_failedBy (c : Stream) (t : Transfer) : c.FailedBy t (c.finishWrite t false) := by
  refine ⟨?_, fun _ ring pass offset hitem r hr hring => ?_⟩
  · unfold Stream.finishWrite
    split <;> rfl
  · rw [Stream.finishWrite, hitem] at hr
    obtain ⟨x, -, rfl⟩ := Stream.mem_modifyRecord hr hring fun _ => rfl
    exact Bool.or_true _

/-- What a stream's failed transfer leaves, ahead of the closing grants. -/
def State.failed (s : State) (e : TransferId) (t : Transfer) (n : StreamNo) (cause : FaultCause) (d : Stream) : State :=
  ((((s.putTransfer e none).recordFault t).putStream n d).accessError n cause).settleStream n

theorem State.failStream_arrives {e : TransferId} {t : Transfer} {isFor : Transfer → Bool} (cause : FaultCause)
    (effect : Transfer → Stream → Stream) (h : s.arrives e t = true) (hfor : isFor t = true) (hn : t.requester.stream? = some n) :
    s.failStream e isFor cause effect = (s.failed e t n cause (effect t (s.stream n))).finish := by
  unfold State.failStream
  rw [State.complete_arrives s e t _ _ _ h hfor, State.onStream_of_stream hn]
  rfl

/-- The rows of a stream's failed transfer. -/
theorem exec_failed {e : TransferId} {t : Transfer} {i : Instr} {cause : FaultCause} (h : s.arrives e t = true)
    (hi : t.requester = .streamRecord n ∧ i = .recordReadError e ∧ cause = .ringAccess
      ∨ t.requester = .streamData n ∧ t.isWrite = false ∧ i = .dataReadError e ∧ cause = .dataAccess
      ∨ t.requester = .streamData n ∧ t.isWrite = true ∧ i = .dataWriteError e ∧ cause = .dataAccess) :
    ∃ d, exec i s = .next (s.failed e t n cause d).finish ∧ (s.stream n).FailedBy t d := by
  have hn : t.requester.stream? = some n := by
    rcases hi with ⟨hr, -⟩ | ⟨hr, -⟩ | ⟨hr, -⟩ <;> rw [hr] <;> rfl
  rcases hi with ⟨hr, rfl, rfl⟩ | ⟨hr, hw, rfl, rfl⟩ | ⟨hr, hw, rfl, rfl⟩
  · refine ⟨_, congrArg Host.Outcome.next (State.failStream_arrives _ _ h (by simp [Transfer.isRecordRead, hr]) hn), rfl, ?_⟩
    rintro ⟨m, hm⟩
    rw [hr] at hm
    cases hm
  · exact ⟨_, congrArg Host.Outcome.next (State.failStream_arrives _ _ h (by simp [Transfer.isData, hr, hw]) hn),
      Stream.failRead_failedBy _ t⟩
  · exact ⟨_, congrArg Host.Outcome.next (State.failStream_arrives _ _ h (by simp [Transfer.isData, hr, hw]) hn),
      Stream.finishWrite_failedBy _ t⟩

theorem State.Beyond.mono {touched halted halted' : StreamNo → Prop} {t : State} (h : State.Beyond touched halted s t)
    (hmono : ∀ m, halted m → halted' m) : State.Beyond touched halted' s t :=
  ⟨h.stream, h.port, fun e r hr => (h.transfers e r hr).imp_right fun ⟨k, m, hm, hr⟩ => ⟨k, m, hmono m hm, hr⟩, h.events⟩

/-- A stream in a taking state faults on its failed transfer (R19). -/
theorem State.failed_of_taking {e : TransferId} {t : Transfer} {cause : FaultCause} {d : Stream} (hd : d.isTaking = true) :
    s.failed e t n cause d = ((((s.putTransfer e none).recordFault t).putStream n d).fault n cause
      (s.generator d.generator).position).examineCommand := by
  unfold State.failed State.accessError
  dsimp only
  rw [State.stream_putStream, if_pos hd]
  rfl

theorem State.failed_of_not_taking {e : TransferId} {t : Transfer} {cause : FaultCause} {d : Stream} (hd : d.isTaking = false) :
    s.failed e t n cause d = (((s.putTransfer e none).recordFault t).putStream n d).settleStream n := by
  unfold State.failed State.accessError
  dsimp only
  rw [State.stream_putStream, if_neg (by rw [hd]; decide)]

/-- What a failed transfer leaves beyond its stream: its reads are marked when it faults (R66). -/
theorem State.failed_beyond (s : State) (e : TransferId) (t : Transfer) (n : StreamNo) (cause : FaultCause) (d : Stream) :
    State.Beyond (· = n) (fun m => m = n ∧ d.isTaking = true) ((s.putTransfer e none).recordFault t) (s.failed e t n cause d) := by
  have hput : State.Beyond (· = n) (fun m => m = n ∧ d.isTaking = true) ((s.putTransfer e none).recordFault t)
      (((s.putTransfer e none).recordFault t).putStream n d) := (State.putStream_touches _ n d).beyond (.of_eq rfl) rfl
  cases htaking : d.isTaking with
  | true =>
    rw [State.failed_of_taking htaking]
    rw [htaking] at hput
    have K := beyond_kept (· = n) (((s.putTransfer e none).recordFault t).putStream n d)
    exact hput.trans ((K.examineCommand (K.fault rfl _ _ (.refl _ _ _))).mono fun m hm => ⟨hm, rfl⟩)
  | false =>
    rw [State.failed_of_not_taking htaking]
    rw [htaking] at hput
    exact hput.trans ((State.settleStream_touches _ n).beyond ((eventsGrow_kept _).settleStream trivial (.refl _))
      (State.settleStream_transfers _ n))

/-- The closing event of the claim that a fault hands over, behind those before it (R104). -/
theorem State.fault_removals (s : State) (n : StreamNo) (cause : FaultCause) (p : Position) :
    (s.fault n cause p).schedule.removals = s.claimsWith n cause.clearReason := by
  have hfaulted : (s.enterFaulted n cause p).stream n = (s.stream n).faultedWith cause p := by
    rw [State.enterFaulted_frame, State.stream_putStream]
  refine (State.settle_removals (s := s.enterFaulted n cause p) ?_).trans ?_
  · rw [hfaulted, Stream.faultedWith_body]
    rfl
  · rw [State.enterFaulted_frame]
    rfl

theorem State.failed_touches (s : State) (e : TransferId) (t : Transfer) (n : StreamNo) (cause : FaultCause) (d : Stream) :
    State.Touches (onlyStream n) ((s.putTransfer e none).recordFault t) (s.failed e t n cause d) := by
  refine ((State.putStream_touches _ n d).trans ?_).trans (State.settleStream_touches _ n)
  unfold State.accessError
  dsimp only
  split
  · exact State.enterFaulted_touches _ n cause _
  · exact .refl _ _

end Sys2Proof.Machine

open Sys2Proof Sys2Proof.Machine

/-- Settles O35: a stream in a taking state faults, and in any other it is examined. -/
theorem accessErrorFaults : Obligations.AccessErrorFaults := by
  intro s e t n i cause h hreports hi c position
  obtain ⟨d, hexec, hfailed⟩ := exec_failed h hi
  refine ⟨_, hexec, ?_, fun htaking => ?_, fun htaking => ?_, ?_, ?_, ?_⟩
  · exact (State.finish_faultAddress _).trans (s.failed_touches e t n cause d).faultAddress
  · have hdt : d.isTaking = true := by rw [hfailed.body]; exact htaking
    have hcause : cause.clearReason = .streamsLeft := by
      rcases hi with ⟨-, -, rfl⟩ | ⟨-, -, -, rfl⟩ | ⟨-, -, -, rfl⟩ <;> rfl
    have hposition : (s.generator d.generator).position = position := by rw [hfailed.body]
    rw [State.failed_of_taking hdt, hposition]
    have hstream : (((s.putTransfer e none).recordFault t).putStream n d).stream n = d := State.stream_putStream _ _ _
    have htransfers (e' : TransferId) (r : Transfer) (hne : some e ≠ some e') (hr : s.transfer e' = some r) :
        (((s.putTransfer e none).recordFault t).putStream n d).transfer e' = some r :=
      (State.SameBut.freed s e).transfers e' r hne hr
    have hclaims : (((s.putTransfer e none).recordFault t).putStream n d).claimsWith n .streamsLeft
        = s.schedule.removals ++ (d.scheduleEntry.map fun id => ⟨id, n, .streamsLeft⟩).toList := by
      rw [State.claimsWith, hstream]
      rfl
    generalize ((s.putTransfer e none).recordFault t).putStream n d = x at hstream htransfers hclaims
    obtain ⟨hleaves, howes, -⟩ := x.fault_leaves (n := n) cause position (by
      rw [hstream, hfailed.body]
      exact ((Stream.reportConsistent_iff c).1 hreports).1)
    have hexamined := (x.fault n cause position).examineCommand_apart (· ≠ n)
    have hsame := hexamined.beyond.stream n (not_not_intro rfl)
    rw [hstream] at hleaves
    obtain ⟨hstate, hfaultCause, hinRun, hlimit, hentry, hrun, hconsumer, -, hfifo, hstaging⟩ := (hsame.symm ▸ hleaves).finish
    refine ⟨hstate, hfaultCause, ?_, ?_, hlimit, hentry, ?_, fun hd => ?_, fun hd => ?_, ?_, fun r hr hrequester hserves => ?_, ?_, ?_⟩
    · rw [hinRun, hfailed.body]
      rfl
    · rw [hconsumer, hfailed.body]
    · rw [hfailed.body] at hrun
      exact hrun
    · rw [hfifo]
      exact Stream.emptied_output (by rw [hfailed.body]; exact hd)
    · rw [hfifo]
      exact Stream.emptied_capture (by rw [hfailed.body]; exact hd)
    · exact State.readsDiscarded_of_fault (fun hd => by rw [hstream, hfailed.body]; exact hd)
        (fun e' r hne hr => .inl (htransfers e' r hne hr)) hexamined.beyond.transfers
    · obtain ⟨x, hx, hxr⟩ := List.mem_map.1 (hstaging.subset (List.mem_map_of_mem hr))
      have hmarked : x.failed = true := by
        cases hitem : t.item with
        | frames ring pass offset =>
          rw [hitem] at hserves
          have hring := congrArg StagedRecord.ringIndex hxr
          exact hfailed.marks ⟨n, hrequester⟩ ring pass offset hitem x hx (hring.trans (beq_iff_eq.1 hserves))
        | _ =>
          rw [hitem] at hserves
          cases hserves
      have hsameMark := congrArg StagedRecord.failed hxr
      exact hsameMark.symm.trans hmarked
    · exact (howes.kept hsame hexamined.beyond.events.heldEvents).finish
    · rw [State.finish_schedule, State.examineCommand_schedule, State.fault_removals, hcause, hclaims, hfailed.body]
      cases c.scheduleEntry <;> rfl
  · have hdt : d.isTaking = false := by rw [hfailed.body]; exact htaking
    rw [State.failed_of_not_taking hdt]
    have hstream : (((s.putTransfer e none).recordFault t).putStream n d).stream n = d := State.stream_putStream _ _ _
    have hremovals : (((s.putTransfer e none).recordFault t).putStream n d).schedule.removals = s.schedule.removals := rfl
    generalize ((s.putTransfer e none).recordFault t).putStream n d = x at hstream hremovals
    constructor
    · rw [State.finish_body, State.settleStream_stream]
      have hhalted := x.settle_halted (n := n) (by rw [hstream]; exact hdt) (by rw [hstream, hfailed.body]; exact hreports)
      rw [hstream, hfailed.body] at hhalted
      exact hhalted
    · rw [State.finish_schedule, State.settleStream_removals, State.settle_removals, hremovals]
      rw [hstream]
      exact Stream.isRunning_of_not_taking hdt
  · exact (State.finish_engine _).trans (s.failed_touches e t n cause d).engine
  · exact (State.finish_timebase _).trans (s.failed_touches e t n cause d).timebase
  · refine State.Beyond.finish (v := (s.putTransfer e none).recordFault t) ⟨rfl, rfl, rfl, (State.SameBut.freed s e).transfers⟩ ?_
    refine (s.failed_beyond e t n cause d).mono fun m ⟨hm, hd⟩ => ⟨hm, ?_⟩
    rw [hfailed.body] at hd
    exact hd

end

section
/-! The reference-loss claim as the Stream Unit takes it (R84). -/

namespace Sys2Proof.Machine

variable {s : State} {g : GenNo} {n : StreamNo}

theorem State.ports_ext {t : State} (h : ∀ m, t.port m = s.port m) : t.ports = s.ports :=
  Vector.ext fun i hi => h ⟨i, hi⟩

/-- A fault leaves every lane as it was. -/
theorem State.fault_ports (s : State) (n : StreamNo) (cause : FaultCause) (p : Position) :
    (s.fault n cause p).ports = s.ports := by
  refine State.ports_ext fun m => ?_
  rcases eq_or_ne m n with rfl | hne
  · exact (s.fault_settles _ cause p).2
  · exact (s.fault_touches n cause p).port _ hne

/-- What the loss of its reference does to one stream (R84). -/
def State.loseStream (p : Position) (s : State) (n : StreamNo) : State :=
  if (s.stream n).isLost then (s.fault n .referenceLost p).examineCommand else s

/-- The claim that a stream hands over as its reference is lost (R84, R104). -/
def State.lossClaim? (s : State) (n : StreamNo) : Option RemovalClaim :=
  if (s.stream n).isLost then (s.stream n).scheduleEntry.map fun id => ⟨id, n, .referenceLost⟩ else none

/-- The order in which a claim visits the streams of a generator. -/
def State.lossOrder (s : State) (g : GenNo) : List StreamNo :=
  s.takeOrder.1.filter fun n => (s.takeOrder.2.stream n).generator == g

theorem State.loseStreams_eq (s : State) (g : GenNo) (p : Position) :
    s.loseStreams g p = (s.lossOrder g).foldl (State.loseStream p) s.takeOrder.2 := rfl

theorem State.lossOrder_nodup (s : State) (g : GenNo) : (s.lossOrder g).Nodup := (State.takeOrder_nodup s).filter _

theorem State.mem_lossOrder (s : State) (g : GenNo) (n : StreamNo) : n ∈ s.lossOrder g ↔ (s.stream n).generator = g := by
  have hstream : s.takeOrder.2.stream n = s.stream n := by
    rw [State.takeOrder_snd]
    rfl
  rw [State.lossOrder, List.mem_filter, hstream, beq_iff_eq]
  exact and_iff_right (s.mem_takeOrder n)

theorem State.loseStream_apart {on : StreamNo → Prop} (p : Position) (s : State) (hn : on n) :
    State.Apart on s (s.loseStream p n) := by
  unfold State.loseStream
  split
  · exact (apart_kept on s).examineCommand ((apart_kept on s).fault hn _ _ (.refl _ s))
  · exact .refl _ s

theorem State.loseStream_removals (p : Position) (s : State) (n : StreamNo) :
    (s.loseStream p n).schedule.removals = s.schedule.removals ++ (s.lossClaim? n).toList := by
  unfold State.loseStream State.lossClaim?
  split
  · rw [State.examineCommand_schedule, State.fault_removals]
    rfl
  · exact (List.append_nil _).symm

theorem State.loseStream_ports (p : Position) (s : State) (n : StreamNo) : (s.loseStream p n).ports = s.ports := by
  unfold State.loseStream
  split
  · exact (State.ports_ext fun m => (State.examineCommand_touches _).port m fun k => k).trans (s.fault_ports n _ p)
  · rfl

/-- The claims that the lost streams hand over, in the order of their faults. -/
theorem State.foldl_loseStream_removals (p : Position) (l : List StreamNo) (hl : l.Nodup) (u : State)
    (hu : ∀ n ∈ l, u.stream n = s.stream n) :
    (l.foldl (State.loseStream p) u).schedule.removals = u.schedule.removals ++ l.filterMap s.lossClaim? := by
  induction l generalizing u with
  | nil => exact (List.append_nil _).symm
  | cons m l ih =>
    obtain ⟨hm, hl⟩ := List.nodup_cons.1 hl
    have hclaim : u.lossClaim? m = s.lossClaim? m := by
      rw [State.lossClaim?, hu m (by simp)]
      rfl
    rw [List.foldl_cons, ih hl _ fun n hn => ?_, State.loseStream_removals, List.append_assoc, hclaim, List.filterMap_cons]
    · cases s.lossClaim? m <;> rfl
    · have hne : n ≠ m := by rintro rfl; exact hm hn
      exact ((u.loseStream_apart (on := (· = m)) p rfl).beyond.stream n hne).trans (hu n (by simp [hn]))

theorem State.lossClaim?_eq_some {c : RemovalClaim} (h : s.lossClaim? n = some c) :
    c.stream = n ∧ c.reason = .referenceLost ∧ (s.stream n).isLost = true ∧ (s.stream n).scheduleEntry = some c.entry := by
  unfold State.lossClaim? at h
  split at h
  · rename_i hlost
    obtain ⟨id, hid, rfl⟩ := Option.map_eq_some_iff.1 h
    exact ⟨rfl, rfl, hlost, hid⟩
  · cases h

theorem Stream.isLost_iff (c : Stream) : c.isLost = true ↔ c.state = .armed ∨ c.isRunning = true := by
  rw [Stream.isLost, Bool.or_eq_true, beq_iff_eq]

/-- A lost stream as the row leaves it: it meets its fault with its own context, and nothing after it changes it. -/
theorem State.loseStreams_visit (s : State) {g : GenNo} (p : Position) (hn : (s.stream n).generator = g) :
    ∃ v, State.Apart (· ≠ n) s v ∧ State.Apart (· ≠ n) (v.loseStream p n) (s.loseStreams g p) := by
  rw [State.loseStreams_eq]
  obtain ⟨v, hv, hfinal⟩ := State.foldl_visit (State.loseStream p) (R := State.Apart (· ≠ n)) (.refl _) .trans (s.lossOrder g)
    (s.lossOrder_nodup g) ((s.mem_lossOrder g n).2 hn)
    (fun u m _ hne => u.loseStream_apart (on := (· ≠ n)) p hne) s.takeOrder.2
  exact ⟨v, (State.takeOrder_apart _ _).trans hv, hfinal⟩

end Sys2Proof.Machine

open Sys2Proof Sys2Proof.Machine

/-- Settles O46: each lost stream faults with its own context, and hands over its claim in its turn. -/
theorem streamLossFaults : Obligations.StreamLossFaults := by
  intro s g l hactive hclaim hreports hit
  have hexec : exec (.streamReferenceLoss g) s
      = .next ({ s with streamLosses := s.streamLosses.erase l }.loseStreams g l.position).finish := by
    refine congrArg Host.Outcome.next ?_
    rw [if_pos hactive, State.takeStreamLoss, hclaim]
  have hframe : State.Apart hit s { s with streamLosses := s.streamLosses.erase l } :=
    .frame hit rfl rfl rfl rfl rfl ⟨rfl, rfl, rfl, rfl, rfl, rfl⟩
  have hstreams (n : StreamNo) : ({ s with streamLosses := s.streamLosses.erase l } : State).stream n = s.stream n := rfl
  have hlost (n : StreamNo) : hit n ↔ (s.stream n).generator = g ∧ (s.stream n).isLost = true :=
    and_congr_right fun _ => (Stream.isLost_iff _).symm
  have htouches := State.loseStreams_touches { s with streamLosses := s.streamLosses.erase l } g l.position
  have hapart : State.Apart hit s ({ s with streamLosses := s.streamLosses.erase l }.loseStreams g l.position) := by
    refine hframe.trans (State.loseStreams_apart (fun m hm hg => ?_) l.position)
    exact Bool.eq_false_iff.2 fun k => hm ((hlost m).2 ⟨hg, k⟩)
  have hremovals : ({ s with streamLosses := s.streamLosses.erase l }.loseStreams g l.position).finish.schedule.removals
      = s.schedule.removals ++ (({ s with streamLosses := s.streamLosses.erase l } : State).lossOrder g).filterMap s.lossClaim? := by
    rw [State.finish_schedule, State.loseStreams_eq]
    refine (State.foldl_loseStream_removals (s := s) l.position _ (State.lossOrder_nodup _ g) _ fun n _ => ?_).trans ?_
    · rw [State.takeOrder_snd]
      rfl
    · rw [State.takeOrder_snd]
  have hmem (n : StreamNo) := State.mem_lossOrder { s with streamLosses := s.streamLosses.erase l } g n
  have hnodup := State.lossOrder_nodup { s with streamLosses := s.streamLosses.erase l } g
  have hvisit (n : StreamNo) (hn : (s.stream n).generator = g) :=
    State.loseStreams_visit { s with streamLosses := s.streamLosses.erase l } (g := g) (n := n) l.position hn
  generalize ({ s with streamLosses := s.streamLosses.erase l } : State).lossOrder g = order at hremovals hmem hnodup
  refine ⟨_, hexec, ?_, ?_, ?_, ?_, ?_, ?_, ?_, ?_⟩
  · rw [State.finish_streamLosses, htouches.streamLosses, State.takeOrder_snd]
  · exact (State.finish_timebase _).trans hapart.timebase
  · exact (State.finish_engine _).trans hapart.engine
  · rw [State.finish_ports, State.loseStreams_eq]
    refine State.foldl_kept (P := fun t => t.ports = s.ports) _ _ (fun t m _ ht => (t.loseStream_ports _ m).trans ht) ?_
    rw [State.takeOrder_snd]
  · exact hapart.beyond.finish (.refl none s)
  · intro n c hn
    obtain ⟨hgenerator, hloses⟩ := (hlost n).1 hn
    obtain ⟨v, hbefore, hafter⟩ := hvisit n hgenerator
    have hv : v.stream n = c := hbefore.beyond.stream n (not_not_intro rfl)
    rw [State.loseStream, if_pos (by rw [hv]; exact hloses)] at hafter
    replace hafter := (State.examineCommand_apart _ _).trans hafter
    obtain ⟨hleaves, howes, -⟩ := v.fault_leaves (n := n) .referenceLost l.position (by
      rw [hv]
      exact ((Stream.reportConsistent_iff c).1 (hreports n)).1)
    have hsame := hafter.beyond.stream n (not_not_intro rfl)
    rw [hv] at hleaves
    obtain ⟨hstate, hcause, hinRun, hlimit, hentry, hrun, -, -, hfifo, -⟩ := (hsame.symm ▸ hleaves).finish
    refine ⟨hstate, hcause, hinRun, hrun, hentry, hlimit, fun hd => ?_, fun hd => ?_, ?_, ?_⟩
    · rw [hfifo]
      exact Stream.emptied_output hd
    · rw [hfifo]
      exact Stream.emptied_capture hd
    · exact State.readsDiscarded_of_fault (fun hd => by rw [hv]; exact hd)
        (fun e r _ hr => (hbefore.beyond.transfers e r hr).imp_right And.left) hafter.beyond.transfers
    · exact (howes.kept hsame hafter.beyond.events.heldEvents).finish
  · exact ⟨_, hremovals.symm⟩
  · rw [hremovals, List.drop_left]
    dsimp only
    refine ⟨?_, fun c hc => ?_, fun n hn hentry => ?_⟩
    · rw [List.map_filterMap]
      refine hnodup.filterMap fun a b m ha hb => ?_
      obtain ⟨c, hc, rfl⟩ := Option.map_eq_some_iff.1 ha
      obtain ⟨d, hd, hdc⟩ := Option.map_eq_some_iff.1 hb
      exact (State.lossClaim?_eq_some hc).1.symm.trans (hdc.symm.trans (State.lossClaim?_eq_some hd).1)
    · obtain ⟨m, hm, hclaimed⟩ := List.mem_filterMap.1 hc
      obtain ⟨rfl, hreason, hloses, hentry⟩ := State.lossClaim?_eq_some hclaimed
      exact ⟨hreason, (hlost _).2 ⟨(hmem _).1 hm, hloses⟩, hentry⟩
    · obtain ⟨hgenerator, hloses⟩ := (hlost n).1 hn
      obtain ⟨id, hid⟩ := Option.ne_none_iff_exists'.1 hentry
      refine List.mem_map.2 ⟨⟨id, n, .referenceLost⟩, List.mem_filterMap.2 ⟨n, (hmem n).2 hgenerator, ?_⟩, rfl⟩
      rw [State.lossClaim?, if_pos hloses, hid]
      rfl

end

section
/-! A stream's transfer that completes OK, and the record read (R31, R55, R62). -/

namespace Sys2Proof.Machine

variable {s : State} {n : StreamNo}

/-! ### What every OK completion of a stream leaves -/

/-- What the OK completion of a stream's transfer leaves, ahead of the closing grants. -/
def State.completed (s : State) (e : TransferId) (n : StreamNo) (d : Stream) : State :=
  ((s.putTransfer e none).putStream n d).settleStream n

theorem State.completeStream_arrives {e : TransferId} {t : Transfer} {isFor : Transfer → Bool}
    (effect : Transfer → Stream → Stream) (h : s.arrives e t = true) (hfor : isFor t = true) (hn : t.requester.stream? = some n) :
    s.completeStream e isFor effect = (s.completed e n (effect t (s.stream n))).finish := by
  unfold State.completeStream State.completeOk
  rw [State.complete_arrives s e t _ _ _ h hfor, State.onStream_of_stream hn]
  rfl

/-- The row changes its stream and frees its entry, and nothing else but by reports and grants. -/
theorem State.completed_agrees (s : State) (e : TransferId) (n : StreamNo) (d : Stream) :
    s.agreesInControl (s.completed e n d).finish ∧ (s.completed e n d).finish.timebase = s.timebase
      ∧ s.agreesBeyond (s.completed e n d).finish (some e) (fun m => m = n) (fun _ => False) := by
  have hput := State.putStream_touches (s.putTransfer e none) n d
  have hsettled := State.settleStream_touches ((s.putTransfer e none).putStream n d) n
  have htouches : State.Touches (onlyStream n) (s.putTransfer e none) (s.completed e n d) := hput.trans hsettled
  have hbeyond : State.Beyond (fun m => m = n) (fun _ => False) (s.putTransfer e none) (s.completed e n d) :=
    htouches.beyond (State.EventsGrow.trans (.of_eq rfl) ((eventsGrow_kept _).settleStream trivial (.refl _)))
      (State.settleStream_transfers _ n)
  have hcontrol : s.agreesInControl (s.completed e n d) :=
    ⟨htouches.engine, htouches.pin, htouches.notifyError, htouches.mode, htouches.lead, htouches.claimChoices,
      htouches.faultAddress, htouches.pending, htouches.streamLosses⟩
  exact ⟨hcontrol.trans (State.finish_control _), (State.finish_timebase _).trans htouches.timebase,
    hbeyond.finish (State.SameBut.freed s e)⟩

/-- The stream of an OK completion: it ended STOPPING in CLOSED, or only reported, and then met the grants. -/
theorem State.completed_stream (s : State) (e : TransferId) (n : StreamNo) (d : Stream) :
    d.state = .stopping ∧ ((s.completed e n d).finish.stream n).state = .closed
        ∧ ((s.completed e n d).finish.stream n).staging = []
      ∨ ∃ x, d.Settles x ∧ x.grantsTo ((s.completed e n d).finish.stream n) := by
  have hstream : ((s.putTransfer e none).putStream n d).stream n = d := State.stream_putStream _ _ _
  have hcloses := ((s.putTransfer e none).putStream n d).settle_closes n
  rw [← State.settleStream_stream, hstream] at hcloses
  have hgrants := (s.completed e n d).finish_grantsTo.2.2.1 n
  refine hcloses.imp (fun ⟨hstopping, hclosed, hstaging⟩ => ⟨hstopping, ?_, ?_⟩) fun hsettles => ⟨_, hsettles, hgrants⟩
  · rw [hgrants.body]
    exact hclosed
  · have hlength := hgrants.2.1
    rw [show ((s.completed e n d).stream n).staging = [] from hstaging] at hlength
    exact List.forall₂_nil_left_iff.1 hlength

theorem State.examineCommand_of_owesNoAnswer (h : s.owesNoAnswer = true) : s.examineCommand = s := by
  refine if_neg fun hall => ?_
  simp only [Bool.and_eq_true, beq_iff_eq, List.isEmpty_iff] at hall
  obtain ⟨⟨hphase, hstreams⟩, hentries⟩ := hall
  exact (s.owesNoAnswer_iff.1 h) hphase hstreams hentries

/-- Where the stream is settled and no answer is owed, the row only changes its stream. -/
theorem State.completed_of_settled {e : TransferId} {d : Stream} (hanswer : s.owesNoAnswer = true)
    (hsettled : ((s.putTransfer e none).putStream n d).isSettled n = true) :
    s.completed e n d = (s.putTransfer e none).putStream n d := by
  rw [State.completed, State.settleStream, State.settle_of_isSettled hsettled]
  exact State.examineCommand_of_owesNoAnswer (s := (s.putTransfer e none).putStream n d) hanswer

/-! ### The record that is taken -/

/-- A record that is staged behind others, or valid, leaves a settled stream settled (R31, R40). -/
theorem Stream.Rests.takeRecord {c : Stream} {b : Bool} (h : c.Rests b) (ht : c.isTaking = true) (r : StreamRecord)
    (hr : validate c r = none ∨ c.staging ≠ []) (b' : Bool) : (c.takeRecord r).Rests b' := by
  obtain ⟨hfault, hhead, hstop, -⟩ := (Stream.rests_taking_iff ht b).1 h
  refine (Stream.rests_taking_iff (c := c.takeRecord r) ht b').2 ⟨hfault, fun x hx hout hret => ?_, hstop, ?_⟩
  · cases hstaging : c.staging with
    | nil =>
      have hx : x = stageRecord c r := by
        rw [Stream.takeRecord, hstaging] at hx
        exact (Option.mem_some_iff.1 hx).symm
      rw [hx]
      exact ⟨hr.resolve_right (not_not_intro hstaging), rfl⟩
    | cons y rest =>
      rw [Stream.takeRecord, hstaging] at hx
      exact hhead x (by rw [hstaging]; exact hx) hout hret
  · simp [Stream.drainComplete, Stream.takeRecord]

/-- An invalid record taken into an empty list is the head that retires REJECTED (R28, R40). -/
theorem State.retirableHead_takeRecord {x : State} {c : Stream} {r : StreamRecord} (hstream : x.stream n = c.takeRecord r)
    (ht : c.isTaking = true) (hempty : c.staging = []) {reason : RejectReason} (hinvalid : validate c r = some reason) :
    x.retirableHead n = some (stageRecord c r, .rejected) := by
  refine State.retirableHead_of_head (by rw [hstream, Stream.takeRecord, hempty]; rfl) ?_
  rw [State.statusOf, if_pos ⟨rfl, rfl⟩, hstream, Stream.retireStatus_of_taking (by exact ht)]
  exact if_pos (by rw [stageRecord, hinvalid]; rfl)

theorem settleFuel_of_isSettled (k : Nat) (h : s.isSettled n = true) : settleFuel k n s = s := by
  cases k with
  | zero => rfl
  | succ k =>
    unfold settleFuel
    rw [Option.isNone_iff_eq_none.1 h]

/-- An examination is its first step and those after it. -/
theorem State.settle_of_step {t : State} (h : s.settleStep n = some t) : ∃ k, s.settle n = settleFuel k n t := by
  refine ⟨(s.stream n).staging.length + 5, ?_⟩
  unfold State.settle
  rw [settleFuel, h]

theorem emptyStaging_kept (n : StreamNo) : State.KeptByReports n (fun t => (t.stream n).staging = []) where
  accept := fun _ _ h _ => h
  stream := fun t d h hd => by
    rw [State.stream_putStream]
    have hnil : unretired d.staging = [] := List.suffix_nil.1 (by have k := hd.staging; rwa [h] at k)
    exact List.map_eq_nil_iff.1 hnil
  close := fun t _ _ _ => by
    rw [State.stream_putStream]
    rfl
  quiet := fun _ h _ => h
  arrived := fun _ h => h
  hand := fun t r h _ => by
    rw [State.handRemoval_frame]
    exact h
  answer := fun t id h _ => by
    have hsame : (t.answerEntry id n).stream n = t.stream n := (t.answerEntry_touches id n).stream n fun k => k
    rw [hsame]
    exact h

/-- A rejected head with room: its report joins the list, and what follows stands behind it. -/
theorem State.settle_rejects {r : StagedRecord} (hp : (s.stream n).pendingReport = none) (hf : (s.stream n).faultOwed = none)
    (hr : s.retirableHead n = some (r, .rejected)) (hstaging : (s.stream n).staging = [r])
    (hroom : s.roomFor (streamProducer n) = true) :
    (s.heldEvents ++ [bufferDone n r .rejected]) <+: (s.settle n).heldEvents ∧ ((s.settle n).stream n).staging = [] := by
  obtain ⟨k, hk⟩ := State.settle_of_step (State.settleStep_retire hp hf hr)
  obtain ⟨hstream, hheld, -⟩ := State.retireHead_leaves .rejected hstaging
  rw [hroom] at hstream hheld
  rw [hk]
  constructor
  · have hgrow := ((eventsGrow_kept (s.retireHead n r .rejected)).reports (n := n) trivial).settleFuel k (.refl _)
    exact hheld ▸ hgrow.heldEvents
  · refine (emptyStaging_kept n).settleFuel k ?_
    rw [hstream]
    rfl

/-- A rejected head without room: its report waits, and nothing follows it. -/
theorem State.settle_rejects_waits {r : StagedRecord} (hp : (s.stream n).pendingReport = none) (hf : (s.stream n).faultOwed = none)
    (hr : s.retirableHead n = some (r, .rejected)) (hroom : s.roomFor (streamProducer n) = false) :
    s.settle n = s.putStream n { (s.stream n).retireHead false .rejected with
      pendingReport := some ⟨bufferDone n r .rejected, false⟩ } := by
  obtain ⟨k, hk⟩ := State.settle_of_step (State.settleStep_retire hp hf hr)
  have hends : (s.stream n).endsWith r .rejected = false := by simp [Stream.endsWith]
  rw [State.retireHead_eq, hends, if_neg (by decide), State.produce_waits _ (by rw [State.accepts_free]; exact hroom)] at hk
  rw [hk]
  refine settleFuel_of_isSettled k (State.isSettled_iff.2 (.inl ?_))
  rw [State.stream_putStream]
  nofun

/-- The grants leave what a record holds beside its transfers and its fetch progress. -/
theorem Stream.grantsTo.map_staging {c d : Stream} (h : c.grantsTo d) {α : Type} {f : StagedRecord → α}
    (hf : ∀ x r, f (StagedRecord.apartFromGrants x r) = f r) : d.staging.map f = c.staging.map f := by
  have hstaging := congrArg Stream.staging h.1
  have hd : d.direction = c.direction := by rw [h.body]
  simp only [Stream.apartFromGrants, hd] at hstaging
  have hmap := congrArg (List.map f) hstaging
  rw [List.map_map, List.map_map] at hmap
  rwa [show f ∘ StagedRecord.apartFromGrants c.direction = f from funext (hf _)] at hmap

/-- An examination takes records out at the head, and leaves what the others hold beside their retirement. -/
theorem Stream.Settles.map_staging {c d : Stream} (h : c.Settles d) {α : Type} {f : StagedRecord → α}
    (hf : ∀ r : StagedRecord, f { r with retired := none } = f r) : d.staging.map f <:+ c.staging.map f := by
  have hstaging := h.staging.map f
  simp only [unretired, List.map_map] at hstaging
  rwa [show (f ∘ fun r : StagedRecord => { r with retired := none }) = f from funext hf] at hstaging

end Sys2Proof.Machine

open Sys2Proof Sys2Proof.Machine

/-- Settles O32: the record is staged, and what can be reported is; elsewhere the stream is examined as it stands. -/
theorem recordReadTakes : Obligations.RecordReadTakes := by
  intro s e t n r h hrequester hsettled hanswer c taken rejected
  have hexec : exec (.recordReadComplete e r) s = .next (s.completed e n (c.recordArrives r)).finish :=
    congrArg Host.Outcome.next (State.completeStream_arrives _ h (by simp [Transfer.isRecordRead, hrequester])
      (by rw [hrequester]; rfl))
  have htaken (k : taken) : c.recordArrives r = c.takeRecord r := by
    refine if_pos ?_
    obtain ⟨htaking, hlimit⟩ := k
    rw [htaking, Bool.true_and, Bool.not_eq_true', Bool.and_eq_false_iff]
    by_cases hdraining : c.state = .draining
    · exact .inr (beq_eq_false_iff_ne.2 fun k => hlimit ⟨hdraining, k⟩)
    · exact .inl (beq_eq_false_iff_ne.2 hdraining)
  have hnot (k : ¬taken) : c.recordArrives r = c := by
    refine if_neg fun hall => k ?_
    rw [Bool.and_eq_true, Bool.not_eq_true', Bool.and_eq_false_iff] at hall
    exact ⟨hall.1, fun ⟨h1, h2⟩ => by rcases hall.2 with h | h <;> simp [h1, h2] at h⟩
  refine ⟨_, hexec, fun k => ?_, fun k hquiet => ?_, fun k reason hinvalid hempty hp => ?_, fun k htaking => ?_,
    fun k htaking => ?_, s.completed_agrees e n _⟩
  · rw [htaken k]
    rcases s.completed_stream e n (c.takeRecord r) with ⟨hstopping, -⟩ | ⟨x, hsettles, hgrants⟩
    · have htaking : (c.takeRecord r).isTaking = true := k.1
      rw [Stream.isTaking, hstopping] at htaking
      cases htaking
    · constructor
      · rw [hgrants.body, hsettles.body]
        rfl
      · refine ⟨?_, ?_, ?_, ?_, ?_⟩ <;> rw [hgrants.body, hsettles.body] <;> rfl
  · rw [htaken k]
    have hstream : ((s.putTransfer e none).putStream n (c.takeRecord r)).stream n = c.takeRecord r := State.stream_putStream _ _ _
    rw [State.completed_of_settled hanswer ?_]
    · have hgrants := ((s.putTransfer e none).putStream n (c.takeRecord r)).finish_grantsTo.2.2.1 n
      rw [hstream] at hgrants
      exact ⟨hgrants, State.finish_heldEvents _⟩
    · rw [State.isSettled_iff_rests] at hsettled ⊢
      rw [hstream]
      rcases hsettled with hpending | hrests
      · exact .inl hpending
      · rcases hquiet with hvalid | hbehind | hpending
        · exact .inr (hrests.takeRecord k.1 r (.inl hvalid) _)
        · exact .inr (hrests.takeRecord k.1 r (.inr hbehind) _)
        · exact .inl hpending
  · rw [htaken k]
    have hstream : ((s.putTransfer e none).putStream n (c.takeRecord r)).stream n = c.takeRecord r := State.stream_putStream _ _ _
    have hroom : ((s.putTransfer e none).putStream n (c.takeRecord r)).roomFor (streamProducer n) = s.roomFor (streamProducer n) :=
      State.roomFor_putStream (s.putTransfer e none) n _
    have hheld : ((s.putTransfer e none).putStream n (c.takeRecord r)).heldEvents = s.heldEvents := rfl
    have howes : ((s.putTransfer e none).putStream n (c.takeRecord r)).owesNoAnswer = true := hanswer
    have hcompleted : s.completed e n (c.takeRecord r)
      = (((s.putTransfer e none).putStream n (c.takeRecord r)).settle n).examineCommand := rfl
    rw [hcompleted]
    generalize (s.putTransfer e none).putStream n (c.takeRecord r) = x at hstream hroom hheld howes
    have hfault : (x.stream n).faultOwed = none := by
      rw [hstream]
      rw [State.isSettled_iff_rests] at hsettled
      exact (hsettled.resolve_left (not_not_intro hp)).fault
    have hretires := State.retirableHead_takeRecord hstream k.1 hempty hinvalid
    have hpending : (x.stream n).pendingReport = none := by rw [hstream]; exact hp
    have hstaged : (x.stream n).staging = [stageRecord c r] := by rw [hstream, Stream.takeRecord, hempty]; rfl
    have hdone : bufferDone n (stageRecord c r) .rejected = rejected reason := by
      rw [bufferDone, if_pos (by decide), stageRecord, hinvalid]
    refine ⟨fun hfree => ?_, fun hfull => ?_⟩
    · obtain ⟨hreported, hnil⟩ := State.settle_rejects hpending hfault hretires hstaged (hroom.trans hfree)
      have hexamined := (x.settle n).examineCommand_apart (fun _ => False)
      constructor
      · obtain ⟨more, hmore⟩ := hreported.trans hexamined.beyond.events.heldEvents
        refine ⟨more, ?_⟩
        rw [State.finish_heldEvents, ← hmore, hdone, hheld, List.append_assoc]
        rfl
      · have hlength := ((x.settle n).examineCommand.finish_grantsTo.2.2.1 n).2.1
        rw [hexamined.beyond.stream n id, hnil] at hlength
        exact List.forall₂_nil_left_iff.1 hlength
    · rw [State.settle_rejects_waits hpending hfault hretires (hroom.trans hfull),
        State.examineCommand_of_owesNoAnswer (by exact howes)]
      have hgrants := (x.putStream n { (x.stream n).retireHead false .rejected with
        pendingReport := some ⟨bufferDone n (stageRecord c r) .rejected, false⟩ }).finish_grantsTo.2.2.1 n
      rw [State.stream_putStream] at hgrants
      refine ⟨(State.finish_heldEvents _).trans hheld, ?_, ?_⟩
      · rw [hgrants.body, hdone]
      · rw [hgrants.map_staging fun x _ => by cases x <;> rfl]
        show (List.map _ (match (x.stream n).staging with
          | [] => []
          | r :: rest => { r with retired := some .rejected } :: rest)) = _
        rw [hstaged, ← hinvalid]
        rfl
  · rw [hnot k]
    have hstream : ((s.putTransfer e none).putStream n c).stream n = c := State.stream_putStream _ _ _
    rw [State.completed_of_settled hanswer (State.isSettled_of_taking hsettled htaking hstream)]
    have hgrants := ((s.putTransfer e none).putStream n c).finish_grantsTo.2.2.1 n
    rw [hstream] at hgrants
    exact ⟨hgrants, State.finish_heldEvents _⟩
  · rw [hnot k]
    rcases s.completed_stream e n c with ⟨-, hclosed, hnil⟩ | ⟨x, hsettles, hgrants⟩
    · exact ⟨.inr hclosed, by rw [hnil]; exact List.nil_suffix⟩
    · refine ⟨.inl ⟨?_, ?_, ?_, ?_, ?_, ?_⟩, ?_⟩
      case refine_7 =>
        rw [hgrants.map_staging fun x _ => by cases x <;> rfl]
        exact hsettles.map_staging fun _ => rfl
      all_goals rw [hgrants.body, hsettles.body]

end

section
/-! The data read and the data write that complete OK (R55, R62). -/

namespace Sys2Proof.Machine

variable {s : State} {n : StreamNo}

/-! ### The end of STOPPING -/

/-- A stream that goes from STOPPING or FAULTED to IDLE has no record left (R18). -/
theorem State.settleStep_idle_empty {t : State} (hhalting : (s.stream n).isHalting = true)
    (hreports : (s.stream n).reportConsistent = true) (ht : s.settleStep n = some t) :
    (t.stream n).state = .idle → (t.stream n).staging = [] := by
  obtain ⟨howes, -, -⟩ := (Stream.reportConsistent_iff _).1 hreports
  have hnotIdle : (s.stream n).state ≠ .idle := by
    rcases (Stream.isHalting_iff _).1 hhalting with h | h <;> rw [h] <;> nofun
  have hnotRunning : (s.stream n).isRunning = false := by
    rcases (Stream.isHalting_iff _).1 hhalting with h | h <;> simp [Stream.isRunning, h]
  refine State.settleStep_cases (P := fun t => (t.stream n).state = .idle → (t.stream n).staging = []) ht ?_ ?_ ?_ ?_ ?_
  · intro cause p _ hidle
    obtain ⟨hstream, -⟩ := State.produce_leaves s n { s.stream n with faultOwed := none } (.streamFault n cause p) false
    rw [hstream] at hidle
    refine absurd ?_ hnotIdle
    split at hidle <;> exact hidle
  · intro r st hr hidle
    obtain ⟨rest, hstaging, -⟩ := State.retirableHead_eq_some hr
    rw [(State.retireHead_leaves st hstaging).1] at hidle
    exact absurd hidle hnotIdle
  · intro o ho hidle
    obtain ⟨hstream, -⟩ := State.produce_leaves s n { s.stream n with stopOwed := none }
      (.streamStopDone n (s.stream n).generator o.reason (s.stream n).finalPosition) o.drainRun
    have hstays : (o.reason == .command || ({ s.stream n with stopOwed := none } : Stream).isRunning) = false := by
      rw [Bool.or_eq_false_iff]
      exact ⟨beq_eq_false_iff_ne.2 (howes o ho), hnotRunning⟩
    rw [hstream, Stream.placed_stopDone, hstays] at hidle
    refine absurd ?_ hnotIdle
    split at hidle <;> exact hidle
  · intro _ _ hidle
    rw [State.stream_putStream] at hidle
    exact absurd hidle hnotIdle
  · intro _ hends _
    have hempty : (s.stream n).staging = [] := by
      simp only [State.stoppingEnds, Bool.and_eq_true, List.isEmpty_iff] at hends
      exact hends.1.2
    exact (emptyStaging_kept n).endStopping hempty hends

/-- A stream in STOPPING or FAULTED, as an examination leaves it. -/
theorem State.settle_halting (hhalting : (s.stream n).isHalting = true) (hreports : (s.stream n).reportConsistent = true) :
    ((s.settle n).stream n).state = .closed
      ∨ (s.stream n).Settles ((s.settle n).stream n)
        ∧ (((s.settle n).stream n).state = (s.stream n).state
          ∨ (s.stream n).state = .stopping ∧ ((s.settle n).stream n).state = .idle ∧ ((s.settle n).stream n).staging = []) := by
  have hclosed {d : Stream} (h : closedStream.Settles d) : d.reportConsistent = true ∧ d.state = .closed :=
    ⟨h.reports (by decide), (closedStream_settles h).1⟩
  refine (State.settle_keeps (n := n) (P := fun t => (t.stream n).reportConsistent = true ∧ ((t.stream n).state = .closed
    ∨ (s.stream n).Settles (t.stream n) ∧ ((t.stream n).state = (s.stream n).state
      ∨ (s.stream n).state = .stopping ∧ (t.stream n).state = .idle ∧ (t.stream n).staging = [])))
    (fun t u ⟨ht, hstate⟩ hu => ?_) ⟨hreports, .inr ⟨.refl _, .inl rfl⟩⟩).2
  rcases (closes_keptByReports t n).settleStep (.inr (.refl _)) hu with ⟨-, hcloses⟩ | hsettles
  · exact ⟨(hclosed hcloses).1, .inl (hclosed hcloses).2⟩
  · refine ⟨hsettles.reports ht, ?_⟩
    rcases hstate with hclosed | ⟨hfrom, hsame | ⟨hstopping, hidle, hempty⟩⟩
    · left
      rcases hsettles.links with ⟨hs, -⟩ | ⟨-, -, hc⟩
      · exact hs.trans hclosed
      · rcases hc ht with hr | hr
        · simp [Stream.isRunning, hclosed] at hr
        · rw [hclosed] at hr
          cases hr
    · refine .inr ⟨hfrom.trans hsettles, ?_⟩
      rcases hsettles.links with ⟨hs, -⟩ | ⟨hidle, -, hc⟩
      · exact .inl (hs.trans hsame)
      · have hhalts : (t.stream n).isHalting = true := by
          rw [Stream.isHalting, hsame]
          exact hhalting
        have hstopping : (t.stream n).state = .stopping := by
          refine (hc ht).resolve_left fun hr => ?_
          rcases (Stream.isHalting_iff _).1 hhalts with h | h <;> simp [Stream.isRunning, h] at hr
        exact .inr ⟨hsame.symm.trans hstopping, hidle, State.settleStep_idle_empty hhalts ht hu hidle⟩
    · refine .inr ⟨hfrom.trans hsettles, .inr ⟨hstopping, ?_, (emptyStaging_kept n).settleStep hempty hu⟩⟩
      rcases hsettles.links with ⟨hs, -⟩ | ⟨hs, -⟩
      · exact hs.trans hidle
      · exact hs

/-- A record that an examination leaves is one of the list before, perhaps retired. -/
theorem Stream.Settles.mem_staging {c d : Stream} (h : c.Settles d) {r : StagedRecord} (hr : r ∈ d.staging) :
    ∃ x ∈ c.staging, ∃ retired, r = { x with retired := retired } := by
  obtain ⟨x, hx, hxr⟩ := List.mem_map.1 (h.staging.subset (List.mem_map_of_mem hr))
  exact ⟨x, hx, r.retired, (congrArg (fun y : StagedRecord => { y with retired := r.retired }) hxr).symm⟩

/-! ### The bytes of a data read -/

/-- The bytes of a place that a read fills: those of the frame that the read carries (R55). -/
theorem fillPlace_leaves (frameSize ring pass offset : Nat) (data : List Byte) (p : Place) :
    let q := fillPlace frameSize ring pass offset data p
    q.ring = p.ring ∧ q.pass = p.pass ∧ q.frame = p.frame ∧ q.gap = p.gap ∧ q.bytes.length = p.bytes.length
      ∧ ∀ j, j < frameSize → q.bytes[j]? =
        if p.ring = ring ∧ p.pass = pass ∧ p.gap = false ∧ j < p.bytes.length
            ∧ offset ≤ p.frame * frameSize + j ∧ p.frame * frameSize + j < offset + data.length then
          some (data[p.frame * frameSize + j - offset]?)
        else p.bytes[j]? := by
  dsimp only
  unfold fillPlace
  by_cases hfills : (p.ring == ring && p.pass == pass && !p.gap && decide (0 < overlap frameSize p.frame offset data.length)) = true
  · rw [if_pos hfills]
    simp only [Bool.and_eq_true, beq_iff_eq, Bool.not_eq_true', decide_eq_true_eq] at hfills
    obtain ⟨⟨⟨hring, hpass⟩, hgap⟩, -⟩ := hfills
    refine ⟨rfl, rfl, rfl, rfl, List.length_mapIdx, fun j _ => ?_⟩
    rw [List.getElem?_mapIdx]
    by_cases hj : j < p.bytes.length
    · rw [List.getElem?_eq_getElem hj, Option.map_some]
      by_cases hcarried : offset ≤ p.frame * frameSize + j ∧ p.frame * frameSize + j < offset + data.length
      · have hk : p.frame * frameSize + j - offset < data.length := by omega
        rw [if_pos hcarried, if_pos ⟨hring, hpass, hgap, hj, hcarried⟩, List.getElem?_eq_getElem hk, List.getD_eq_getElem _ _ hk]
      · rw [if_neg hcarried, if_neg fun h => hcarried h.2.2.2.2]
    · rw [if_neg fun h => hj h.2.2.2.1, List.getElem?_eq_none (Nat.le_of_not_lt hj)]
      rfl
  · rw [if_neg hfills]
    refine ⟨rfl, rfl, rfl, rfl, rfl, fun j hj => (if_neg fun h => hfills ?_).symm⟩
    obtain ⟨hring, hpass, hgap, -, hfrom, hto⟩ := h
    have hoverlap : 0 < overlap frameSize p.frame offset data.length := by
      unfold overlap
      rw [Nat.add_mul, Nat.one_mul]
      omega
    simp [hring, hpass, hgap, hoverlap]

/-- The context once a data read of the record at a ring index has ended, with what it leaves of the FIFO. -/
def Stream.readEnded (c : Stream) (ring : Nat) (fifo : List Place) : Stream :=
  { c.modifyRecord ring (fun r => { r with outstanding := r.outstanding - 1 }) with fifo := fifo }

/-- A data read that is handed over, and one that is marked for discard (R55, R67). -/
theorem Stream.completeRead_eq {c : Stream} {t : Transfer} {ring pass offset : Nat} {data : List Byte}
    (hitem : t.item = .frames ring pass offset) (hlength : data.length = t.length) : c.completeRead t data =
      c.readEnded ring (if t.discard then c.fifo else c.fifo.map (fillPlace c.frameSize ring pass offset data)) := by
  have hdata : readData t data = data := by
    rw [readData, ← hlength]
    simp
  unfold Stream.completeRead
  rw [hitem, hdata]
  dsimp only
  split <;> rfl

/-! ### The places of a data write -/

/-- The bytes of a place that a write carries (R61). -/
def Place.carriedBy (frameSize ring offset length : Nat) (p : Place) : Nat :=
  if p.ring = ring then overlap frameSize p.frame offset length else 0

variable {frameSize ring offset length : Nat}

theorem Place.afterWrite_eq (p : Place) : p.afterWrite frameSize ring offset length true =
    if p.carriedBy frameSize ring offset length = 0 then p
    else { p with writes := p.writes - 1, written := p.written + p.carriedBy frameSize ring offset length } := by
  unfold Place.afterWrite Place.carriedBy
  by_cases hring : p.ring = ring
  · simp only [hring, beq_self_eq_true, Bool.true_and, decide_eq_true_eq, if_true]
    by_cases hk : overlap frameSize p.frame offset length = 0
    · rw [if_pos hk, if_neg (by omega)]
    · rw [if_neg hk, if_pos (by omega)]
  · simp [hring]

/-- A write leaves of a place all but its marks. -/
theorem Place.afterWrite_body (p : Place) : p.afterWrite frameSize ring offset length true =
    { p with
      writes := (p.afterWrite frameSize ring offset length true).writes
      written := (p.afterWrite frameSize ring offset length true).written } := by
  rw [Place.afterWrite_eq]
  split <;> rfl

theorem Place.freedBy_afterWrite (p : Place) :
    (p.afterWrite frameSize ring offset length true).freedBy frameSize ring offset length =
      (0 < p.carriedBy frameSize ring offset length && (p.afterWrite frameSize ring offset length true).writes == 0
        && (p.issued == frameSize || p.givenUp)) := by
  rw [Place.freedBy]
  have hring : (p.afterWrite frameSize ring offset length true).ring = p.ring := by rw [Place.afterWrite_body]
  have hframe : (p.afterWrite frameSize ring offset length true).frame = p.frame := by rw [Place.afterWrite_body]
  have hissued : (p.afterWrite frameSize ring offset length true).issued = p.issued := by rw [Place.afterWrite_body]
  have hgivenUp : (p.afterWrite frameSize ring offset length true).givenUp = p.givenUp := by rw [Place.afterWrite_body]
  rw [hring, hframe, hissued, hgivenUp, Place.carriedBy]
  by_cases h : p.ring = ring <;> simp [h]

/-- The frames that a write frees and that were written whole. -/
def Stream.countedBy (c : Stream) (ring offset length : Nat) : Nat :=
  (c.fifo.map (Place.afterWrite c.frameSize ring offset length true)).countP
    (fun p => p.freedBy c.frameSize ring offset length && p.counts c.frameSize)

/-- The record of a write that has completed OK (R39, R62). -/
def StagedRecord.writtenBy (counted : Nat) (r : StagedRecord) : StagedRecord :=
  ({ r with outstanding := r.outstanding - 1, moved := r.moved + counted, failed := r.failed || !true } : StagedRecord).markFinished

theorem Stream.completeWrite_eq (c : Stream) (ring offset length : Nat) : c.completeWrite ring offset length true =
    { c.modifyRecord ring (StagedRecord.writtenBy (c.countedBy ring offset length)) with
      fifo := (c.fifo.map (Place.afterWrite c.frameSize ring offset length true)).filter
        (fun p => !p.freedBy c.frameSize ring offset length) } := rfl

/-- A stream in a taking state, after its OK completion. -/
theorem State.completed_taking (s : State) (e : TransferId) {d : Stream} (hd : d.isTaking = true) :
    ∃ x, d.Settles x ∧ x.grantsTo ((s.completed e n d).finish.stream n) := by
  refine (s.completed_stream e n d).resolve_left fun ⟨hstopping, _⟩ => ?_
  rw [Stream.isTaking, hstopping] at hd
  cases hd

/-- The places of an OUTPUT stream in a taking state stay at the head of its FIFO. -/
theorem State.completed_fifo (s : State) (e : TransferId) {d : Stream} (hd : d.isTaking = true) (houtput : d.direction = .output) :
    d.fifo <+: ((s.completed e n d).finish.stream n).fifo := by
  obtain ⟨x, hsettles, hgrants⟩ := s.completed_taking (n := n) e hd
  have hfifo : x.fifo = d.fifo := by rw [hsettles.body]
  rw [← hfifo]
  exact hgrants.2.2.1 (by rw [hsettles.body]; exact houtput)

/-- A stream in STOPPING or FAULTED after its OK completion: CLOSED, or as the examination left it. -/
theorem State.completed_halting (s : State) (e : TransferId) {d : Stream} (hd : d.isHalting = true) (hreports : d.reportConsistent = true) :
    ((s.completed e n d).finish.stream n).state = .closed
      ∨ ∃ x b, d.Settles x ∧ (x.state = d.state ∨ d.state = .stopping ∧ x.state = .idle)
        ∧ (s.completed e n d).finish.stream n = { x with readPresented := b } := by
  have hstream : ((s.putTransfer e none).putStream n d).stream n = d := State.stream_putStream _ _ _
  have hleaves := State.settle_halting (s := (s.putTransfer e none).putStream n d) (n := n) (by rw [hstream]; exact hd)
    (by rw [hstream]; exact hreports)
  rw [← State.settleStream_stream, hstream] at hleaves
  have hfinal := (s.completed e n d).finish_body n
  rcases hleaves with hclosed | ⟨hsettles, hstate⟩
  · left
    rw [hfinal]
    exact hclosed
  · right
    have hstill : ((s.completed e n d).stream n).isRunning = false
        ∧ (((s.completed e n d).stream n).isTaking = false ∨ ((s.completed e n d).stream n).staging = []) := by
      rcases hstate with hsame | ⟨-, hidle, hempty⟩
      · have hnot : ((s.completed e n d).stream n).isTaking = false := by
          have hstate : ((s.completed e n d).stream n).state = d.state := hsame
          rcases (Stream.isHalting_iff _).1 hd with k | k <;> simp [Stream.isTaking, hstate, k]
        exact ⟨Stream.isRunning_of_not_taking hnot, .inl hnot⟩
      · have hstate : ((s.completed e n d).stream n).state = .idle := hidle
        exact ⟨by simp [Stream.isRunning, hstate], .inr hempty⟩
    obtain ⟨b, hb⟩ := State.finish_still hstill.1 hstill.2
    exact ⟨_, b, hsettles, hstate.imp id fun k => ⟨k.1, k.2.1⟩, hb⟩

end Sys2Proof.Machine

open Sys2Proof Sys2Proof.Machine

/-- Settles O33: the bytes fill their places, or are dropped, and the stream only reports. -/
theorem dataReadFills : Obligations.DataReadFills := by
  intro s e t n ring pass offset data h hrequester hwrite hitem hlength hd c
  have hexec : exec (.dataReadComplete e data) s = .next (s.completed e n (c.completeRead t data)).finish :=
    congrArg Host.Outcome.next (State.completeStream_arrives _ h (by simp [Transfer.isData, hrequester, hwrite])
      (by rw [hrequester]; rfl))
  rw [Stream.completeRead_eq hitem hlength] at hexec
  refine ⟨_, hexec, fun hkeeps htaking k _ p hp => ?_, fun hdiscard htaking => ?_, fun hdiscard hreports hhalting => ?_,
    fun htaking => ?_, s.completed_agrees e n _⟩
  · rw [hkeeps, if_neg (by decide)]
    obtain ⟨more, hmore⟩ := s.completed_fifo (n := n) e
      (d := c.readEnded ring (c.fifo.map (fillPlace c.frameSize ring pass offset data))) htaking hd
    have hat : c.fifo[k]? = some p := hp
    refine ⟨fillPlace c.frameSize ring pass offset data p, ?_, ?_⟩
    · have hmap : (c.fifo.map (fillPlace c.frameSize ring pass offset data))[k]?
          = some (fillPlace c.frameSize ring pass offset data p) := by rw [List.getElem?_map, hat]; rfl
      rw [← hmore]
      exact (List.getElem?_append_left (List.getElem?_eq_some_iff.1 hmap).1).trans hmap
    · rw [← hlength]
      exact fillPlace_leaves _ ring pass offset data p
  · rw [hdiscard, if_pos rfl]
    exact s.completed_fifo (n := n) e (d := c.readEnded ring c.fifo) htaking hd
  · rw [hdiscard, if_pos rfl]
    refine (s.completed_halting (n := n) e (d := c.readEnded ring c.fifo)
      ((Stream.isHalting_iff _).2 hhalting) hreports).imp id ?_
    rintro ⟨x, b, hsettles, hstate, hfinal⟩
    rw [hfinal]
    refine ⟨?_, ?_, ⟨?_, ?_, ?_, ?_, ?_⟩, ?_, hstate, fun r hr => ?_⟩
    case refine_9 =>
      obtain ⟨y, hy, retired, rfl⟩ := hsettles.mem_staging hr
      obtain ⟨r₀, hr₀, rfl⟩ := List.mem_map.1 hy
      refine ⟨r₀, hr₀, ?_⟩
      by_cases hring : r₀.ringIndex = ring
      · rw [if_pos (beq_iff_eq.2 hring), if_pos hring]
        exact ⟨rfl, rfl, rfl, rfl, rfl, rfl⟩
      · rw [if_neg (by rw [beq_iff_eq]; exact hring), if_neg hring]
        exact ⟨rfl, rfl, rfl, rfl, rfl, rfl⟩
    all_goals rw [hsettles.body]; rfl
  · obtain ⟨x, hsettles, hgrants⟩ := s.completed_taking (n := n) e
      (d := c.readEnded ring (if t.discard then c.fifo else c.fifo.map (fillPlace c.frameSize ring pass offset data))) htaking
    refine ⟨?_, ?_, ?_, ?_, ?_⟩ <;> rw [hgrants.body, hsettles.body] <;> rfl

/-- Settles O34: the places and the record of the write, and the head record that it finishes. -/
theorem dataWriteFrees : Obligations.DataWriteFrees := by
  intro s e t n ring pass offset h hrequester hwrite hitem hd c bytesOf after freed counted complete
  have hexec : exec (.dataWriteComplete e) s = .next (s.completed e n (c.completeWrite ring offset t.length true)).finish := by
    refine (congrArg Host.Outcome.next (State.completeStream_arrives _ h (by simp [Transfer.isData, hrequester, hwrite])
      (by rw [hrequester]; rfl))).trans ?_
    rw [Stream.finishWrite, hitem]
  have hafter : Place.afterWrite c.frameSize ring offset t.length true = after := funext fun p => p.afterWrite_eq
  have hfreed : (fun p => (Place.afterWrite c.frameSize ring offset t.length true p).freedBy c.frameSize ring offset t.length)
      = freed := funext fun p => by rw [Place.freedBy_afterWrite, hafter]; rfl
  have hcounted : c.countedBy ring offset t.length = counted := by
    rw [Stream.countedBy, List.countP_map, List.countP_eq_length_filter]
    refine congrArg (fun f => (c.fifo.filter f).length) (funext fun p => ?_)
    have hgivenUp : (p.afterWrite c.frameSize ring offset t.length true).givenUp = p.givenUp := by rw [Place.afterWrite_body]
    have hcounts : (Place.afterWrite c.frameSize ring offset t.length true p).counts c.frameSize
        = (!p.givenUp && (after p).written == c.frameSize) := by
      rw [Place.counts, hgivenUp, hafter]
    rw [Function.comp_apply, hcounts, ← Bool.and_assoc]
    exact congrArg (fun b => b && !p.givenUp && (after p).written == c.frameSize) (congrFun hfreed p)
  refine ⟨_, hexec, ?_, fun htaking hp hf r₀ hr₀ hring hvalid hretired hout hcomplete => ?_, s.completed_agrees e n _⟩
  · rcases s.completed_stream e n (c.completeWrite ring offset t.length true) with ⟨-, hclosed, -⟩ | ⟨x, hsettles, hgrants⟩
    · exact .inl hclosed
    · right
      constructor
      · have hfifo : x.fifo = ((c.fifo.filter fun p => !freed p).map after) := by
          rw [hsettles.body, Stream.completeWrite_eq, ← hafter, ← hfreed, List.filter_map]
          rfl
        rw [← hfifo]
        exact hgrants.capture_fifo (by rw [hsettles.body]; exact hd)
      · intro r hr
        rw [Stream.completeWrite_eq, hcounted] at hsettles
        have hmap : (r.ringIndex, r.record, r.moved, r.finished)
            ∈ x.staging.map (fun y => (y.ringIndex, y.record, y.moved, y.finished)) := by
          rw [← hgrants.map_staging fun d _ => by cases d <;> rfl]
          exact List.mem_map_of_mem hr
        obtain ⟨y, hy, hyr⟩ := List.mem_map.1 ((hsettles.map_staging fun _ => rfl).subset hmap)
        obtain ⟨r₀, hr₀, rfl⟩ := List.mem_map.1 hy
        refine ⟨r₀, hr₀, ?_⟩
        by_cases hring : r₀.ringIndex = ring
        · rw [if_pos (beq_iff_eq.2 hring), Prod.mk.injEq, Prod.mk.injEq, Prod.mk.injEq] at hyr
          obtain ⟨hindex, hrecord, hmoved, hfinished⟩ := hyr
          have hthere : r.ringIndex = ring := hindex.symm.trans hring
          refine ⟨hindex, hrecord, ?_, ?_⟩
          · rw [if_pos hthere]
            exact hmoved.symm
          · rw [hthere, beq_self_eq_true, Bool.true_and]
            exact hfinished.symm
        · rw [if_neg (by rw [beq_iff_eq]; exact hring), Prod.mk.injEq, Prod.mk.injEq, Prod.mk.injEq] at hyr
          obtain ⟨hindex, hrecord, hmoved, hfinished⟩ := hyr
          have helsewhere : r.ringIndex ≠ ring := fun k => hring (hindex.trans k)
          refine ⟨hindex, hrecord, ?_, ?_⟩
          · rw [if_neg helsewhere]
            exact hmoved.symm
          · rw [beq_eq_false_iff_ne.2 helsewhere, Bool.false_and, Bool.or_false]
            exact hfinished.symm
  · have hstream : ((s.putTransfer e none).putStream n (c.completeWrite ring offset t.length true)).stream n
        = c.completeWrite ring offset t.length true := State.stream_putStream _ _ _
    have hlast : r₀.progress = r₀.record.frameCount.toNat ∧ r₀.moved + counted = r₀.record.frameCount.toNat := by
      simpa [complete] using hcomplete
    have hhead : (c.completeWrite ring offset t.length true).staging.head? = some (r₀.writtenBy counted) := by
      rw [← hcounted]
      exact Stream.modifyRecord_head (Option.mem_def.1 hr₀) hring
    have hdone : bufferDone n (r₀.writtenBy counted) .done = .bufferDone n r₀.record.tag ring .done none
        r₀.record.frameCount.toNat r₀.firstPosition r₀.record.quietFlag := by
      rw [← hlast.2, ← hring]
      rfl
    have hretires : ((s.putTransfer e none).putStream n (c.completeWrite ring offset t.length true)).retirableHead n
        = some (r₀.writtenBy counted, .done) := by
      refine State.retirableHead_of_head (by rw [hstream]; exact hhead) ?_
      have hnone : (r₀.writtenBy counted).outstanding = 0 := by
        show r₀.outstanding - 1 = 0
        rw [hout]
      have hfinished : (r₀.writtenBy counted).finished = true := by
        show (r₀.finished || complete r₀) = true
        rw [hcomplete, Bool.or_true]
      rw [State.statusOf, if_pos ⟨hnone, hretired⟩, hstream, Stream.retireStatus_of_taking (by exact htaking), hfinished]
      exact if_neg (by rw [show (r₀.writtenBy counted).invalid = r₀.invalid from rfl, hvalid]; decide)
    have hreport := State.settle_retires (by rw [hstream]; exact hp) (by rw [hstream]; exact hf) hretires
    have hexamined := (((s.putTransfer e none).putStream n (c.completeWrite ring offset t.length true)).settle n).examineCommand_apart
      (· ≠ n)
    rw [← hdone]
    exact (hreport.kept (hexamined.beyond.stream n (not_not_intro rfl)) hexamined.beyond.events.heldEvents).finish

end

section
/-! A stream in STOPPING, until it ends (R18), and CLOSE_STREAM (R129). -/

namespace Sys2Proof.Machine

variable {s : State} {n : StreamNo}

/-! ### STOPPING goes on until it ends -/

/-- A report that does not end STOPPING leaves the Command Unit, the Schedule Unit and the lanes as they are. -/
theorem State.produce_quiet (s : State) (n : StreamNo) (c : Stream) (e : Event) (drainRun : Bool)
    (h : s.accepts n c drainRun = true → c.arrivesWith e = false) :
    let u := (s.putStream n c).produce n e drainRun
    u.command = s.command ∧ u.schedule = s.schedule ∧ u.ports = s.ports := by
  dsimp only
  cases ha : s.accepts n c drainRun with
  | false =>
    rw [State.produce_waits e ha]
    exact ⟨rfl, rfl, rfl⟩
  | true =>
    rw [State.produce_accepted e ha, h ha]
    exact ⟨rfl, rfl, rfl⟩

/-- Stream `n` is in STOPPING as in `m`, but for what it has reported since. -/
structure State.StillStopping (m : State) (n : StreamNo) (t : State) : Prop where
  settles : (m.stream n).Settles (t.stream n)
  state : (t.stream n).state = .stopping
  consistent : (t.stream n).reportConsistent = true
  command : t.command = m.command
  schedule : t.schedule = m.schedule
  ports : t.ports = m.ports

/-- A stream in STOPPING reports its records, until STOPPING ends. -/
theorem State.settleStep_stopping {t : State} (hstate : (s.stream n).state = .stopping)
    (hreports : (s.stream n).reportConsistent = true) (ht : s.settleStep n = some t) :
    ((s.stream n).pendingReport = none ∧ (s.stream n).faultOwed = none ∧ (s.stream n).stopOwed = none)
      ∧ s.stoppingEnds n = true ∧ t = s.endStopping n ∨ s.StillStopping n t := by
  obtain ⟨howes, -, -⟩ := (Stream.reportConsistent_iff _).1 hreports
  have hrunning : (s.stream n).isRunning = false := by simp [Stream.isRunning, hstate]
  have hstill (u : State) (hu : s.settleStep n = some u) (hstays : (u.stream n).state = .stopping)
      (hquiet : u.command = s.command ∧ u.schedule = s.schedule ∧ u.ports = s.ports) : s.StillStopping n u := by
    have hsettles : (s.stream n).Settles (u.stream n) := by
      refine ((closes_keptByReports s n).settleStep (.inr (.refl _)) hu).resolve_left fun ⟨_, hcloses⟩ => ?_
      rw [(closedStream_settles hcloses).1] at hstays
      cases hstays
    exact ⟨hsettles, hstays, hsettles.reports hreports, hquiet.1, hquiet.2.1, hquiet.2.2⟩
  refine State.settleStep_cases (P := fun u => u = t → ((s.stream n).pendingReport = none ∧ (s.stream n).faultOwed = none
    ∧ (s.stream n).stopOwed = none) ∧ s.stoppingEnds n = true ∧ u = s.endStopping n ∨ s.StillStopping n u)
    ht ?_ ?_ ?_ ?_ ?_ rfl
  · rintro cause p - rfl
    obtain ⟨hstream, -⟩ := State.produce_leaves s n { s.stream n with faultOwed := none } (.streamFault n cause p) false
    refine .inr (hstill _ ht ?_ (State.produce_quiet s n _ _ _ fun _ => rfl))
    rw [hstream]
    split <;> exact hstate
  · rintro r st hr rfl
    obtain ⟨rest, hstaging, -⟩ := State.retirableHead_eq_some hr
    have hends : (s.stream n).endsWith r st = false := by rw [Stream.endsWith, hrunning, Bool.and_false]
    refine .inr (hstill _ ht ?_ ?_)
    · rw [(State.retireHead_leaves st hstaging).1]
      exact hstate
    · rw [State.retireHead_eq, hends]
      refine State.produce_quiet s n _ _ _ fun _ => ?_
      unfold bufferDone
      split <;> rfl
  · rintro o ho rfl
    have hstays : (o.reason == .command || ({ s.stream n with stopOwed := none } : Stream).isRunning) = false := by
      rw [Bool.or_eq_false_iff]
      exact ⟨beq_eq_false_iff_ne.2 (howes o ho), hrunning⟩
    obtain ⟨hstream, -⟩ := State.produce_leaves s n { s.stream n with stopOwed := none }
      (.streamStopDone n (s.stream n).generator o.reason (s.stream n).finalPosition) o.drainRun
    refine .inr (hstill _ ht ?_ (State.produce_quiet s n _ _ _ fun _ => hstays))
    rw [hstream, Stream.placed_stopDone, hstays]
    split <;> exact hstate
  · intro _ hdrain
    simp [Stream.drainComplete, hstate] at hdrain
  · rintro hsilent hends rfl
    exact .inl ⟨hsilent, hends, rfl⟩

/-- An examination of a stream in STOPPING leaves it there, or what the end of STOPPING leaves. -/
theorem State.settle_stopping {Q : State → Prop} (hstate : (s.stream n).state = .stopping)
    (hreports : (s.stream n).reportConsistent = true)
    (hends : ∀ t, s.StillStopping n t → (t.stream n).pendingReport = none ∧ (t.stream n).faultOwed = none
      ∧ (t.stream n).stopOwed = none → t.stoppingEnds n = true → s.StillStopping n (t.endStopping n) ∨ Q (t.endStopping n))
    (hstep : ∀ t u, Q t → t.settleStep n = some u → Q u) : s.StillStopping n (s.settle n) ∨ Q (s.settle n) := by
  refine State.settle_keeps (P := fun t => s.StillStopping n t ∨ Q t) (fun t u ht hu => ?_)
    (.inl ⟨.refl _, hstate, hreports, rfl, rfl, rfl⟩)
  rcases ht with hstill | hQ
  · rcases State.settleStep_stopping hstill.state hstill.consistent hu with ⟨hsilent, he, rfl⟩ | hnext
    · exact hends t hstill hsilent he
    · exact .inl ⟨hstill.settles.trans hnext.settles, hnext.state, hnext.consistent, hnext.command.trans hstill.command,
        hnext.schedule.trans hstill.schedule, hnext.ports.trans hstill.ports⟩
  · exact .inr (hstep t u hQ hu)

/-! ### The answer of a command that waited -/

/-- A command whose wait sets are empty is answered OK, and its answer joins the list or waits (R120, R122, R123). -/
theorem State.examineCommand_answers {q : CommandInProgress} (hphase : s.command.phase = .completing)
    (hstreams : s.command.streamWait = 0) (hentries : s.command.entryWait = []) (hq : s.command.inProgress = some q) :
    s.examineCommand.finish.command.phase ≠ .completing
      ∧ (s.examineCommand.finish.heldEvents.getLast? = some (.cmdDone q.seq q.index .ok (padTo 16 q.result))
        ∨ s.examineCommand.finish.command.slot = some (.cmdDone q.seq q.index .ok (padTo 16 q.result))) := by
  have hexamined : s.examineCommand = s.produceCmdDone .ok q.result .nobody := by
    unfold State.examineCommand
    rw [if_pos (by simp [hphase, hstreams, hentries]), hq]
  obtain ⟨hslot, -, hphase', -⟩ := s.examineCommand.finish_command
  rw [hslot, State.finish_heldEvents]
  rw [hexamined, State.produceCmdDone_eq hq] at hphase' ⊢
  split at hphase' <;> rename_i hroom
  · rw [if_pos hroom]
    refine ⟨fun hcompleting => ?_, .inl ?_⟩
    · have hready := Phase.completing_of_apartFromGrants hphase' hcompleting
      cases hready
    · show (s.accept _).heldEvents.getLast? = _
      rw [State.accept_heldEvents, List.getLast?_concat]
  · rw [if_neg hroom]
    refine ⟨fun hcompleting => ?_, .inr rfl⟩
    have hreporting := Phase.completing_of_apartFromGrants hphase' hcompleting
    cases hreporting

/-- A command that waits for a stream or an entry goes on waiting. -/
theorem State.examineCommand_waits (h : s.command.streamWait ≠ 0 ∨ s.command.entryWait ≠ []) : s.examineCommand = s := by
  refine State.examineCommand_of_owesNoAnswer (s.owesNoAnswer_iff.2 fun _ hstreams => ?_)
  exact h.resolve_left (not_not_intro hstreams)

theorem State.finish_completing (h : s.command.phase = .completing) : s.finish.command.phase = .completing := by
  obtain ⟨-, -, hphase, -⟩ := s.finish_command
  exact Phase.completing_of_apartFromGrants hphase.symm h

/-! ### CLOSE_STREAM -/

/-- A CLOSED stream with nothing to report. -/
def State.StandsClosed (s : State) (n : StreamNo) (command : CommandUnit) : Prop :=
  s.stream n = closedStream ∧ s.port n = quietPort ∧ s.command = { command with streamWait := command.streamWait &&& ~~~streamBit n }

theorem State.isSettled_closed (h : s.stream n = closedStream) : s.isSettled n = true := by
  rw [State.isSettled_iff_rests, h]
  exact .inr ⟨rfl, nofun, rfl, rfl, nofun⟩

/-- A stream that stops for CLOSED is examined: it is STOPPING, or CLOSED and no longer waited for (R129). -/
theorem State.settle_closing (hstate : (s.stream n).state = .stopping) (hd : (s.stream n).destination = some .closed)
    (hreports : (s.stream n).reportConsistent = true) :
    s.StillStopping n (s.settle n) ∨ (s.settle n).StandsClosed n s.command := by
  refine State.settle_stopping (Q := fun t => t.StandsClosed n s.command) hstate hreports (fun t hstill _ _ => .inr ?_)
    fun t u hclosed hu => ?_
  · have hdestination : (t.stream n).destination = some .closed := by
      rcases hstill.settles.links with ⟨-, -, hsame, -⟩ | ⟨hidle, -⟩
      · exact hsame.trans hd
      · rw [hstill.state] at hidle
        cases hidle
    rw [State.endStopping_closed hdestination]
    exact ⟨State.stream_putStream _ _ _, State.port_putPort _ _ _, by rw [← hstill.command]; rfl⟩
  · have hsettled := State.isSettled_closed hclosed.1
    rw [State.isSettled, hu] at hsettled
    cases hsettled

/-! ### The entry to STOPPING -/

theorem State.enterStopping_frame (s : State) (n : StreamNo) (d : Destination) (o : Option StopOrigin) (a : Option EntryId) :
    s.enterStopping n d o a = ({ s with transfers := { s.transfers with table := s.markedTable n } }).putStream n
      ((s.stream n).stoppingWith d o a) := by
  rw [State.enterStopping_eq, State.readsMarked_frame]

theorem State.enterStopping_stream (s : State) (n : StreamNo) (d : Destination) (o : Option StopOrigin) (a : Option EntryId) :
    (s.enterStopping n d o a).stream n = (s.stream n).stoppingWith d o a := by
  rw [State.enterStopping_frame, State.stream_putStream]

theorem Stream.stoppingWith_body (c : Stream) (d : Destination) (o : Option StopOrigin) (a : Option EntryId) :
    c.stoppingWith d o a = { c with
      fifo := c.emptied.fifo
      fetchSplit := c.emptied.fetchSplit
      state := .stopping
      destination := some d
      stopOrigin := o
      drainLimit := none
      scheduleEntry := none
      faultCause := none
      stopReported := c.isEnded
      stoppedFromFault := c.state == .faulted
      answerTo := a } := by
  rw [Stream.stoppingWith, Stream.emptied_body]

/-- The entry to STOPPING marks the reads of an OUTPUT stream (R66). -/
theorem State.enterStopping_allMarked (d : Destination) (o : Option StopOrigin) (a : Option EntryId)
    (h : (s.stream n).direction = .output) : (s.enterStopping n d o a).AllMarked n := by
  rw [State.enterStopping_eq]
  have hmarked := State.readsMarked_allMarked h
  exact hmarked

/-! ### CLOSE_STREAM at its execution -/

/-- What CLOSE_STREAM does with its stream once its checks have passed (R21, R129). -/
def State.closing (s : State) (n : StreamNo) : State :=
  (s.awaitCompletion [] (streamBit n) []).enterStopping n .closed none none

theorem State.closeStream_of_number {b : BitVec 8} (h : 7 < b.toNat) : s.closeStream b = s.refuse .badParam := by
  rw [State.closeStream, streamOf_eq, if_pos h]

theorem State.closeStream_of_number_le {b : BitVec 8} (h : b.toNat ≤ 7) : s.closeStream b =
    if (s.stream (Fin.ofNat 8 b.toNat)).state ≠ .idle ∧ (s.stream (Fin.ofNat 8 b.toNat)).state ≠ .faulted then s.refuse .badState
    else ((s.closing (Fin.ofNat 8 b.toNat)).settle (Fin.ofNat 8 b.toNat)).examineCommand := by
  rw [State.closeStream, streamOf_eq, if_neg (Nat.not_lt.2 h)]
  refine if_congr ?_ rfl rfl
  simp

theorem streamBit_ne_zero (n : StreamNo) : streamBit n ≠ 0 := by
  fin_cases n <;> decide

theorem streamBit_cleared (n : StreamNo) : streamBit n &&& ~~~streamBit n = 0 := by
  fin_cases n <;> decide

theorem State.closing_stream (s : State) (n : StreamNo) :
    (s.closing n).stream n = (s.stream n).stoppingWith .closed none none := State.enterStopping_stream _ _ _ _ _

theorem State.closing_command (s : State) (n : StreamNo) : (s.closing n).command = { s.command with
    phase := .completing
    inProgress := s.command.inProgress.map (fun p => { p with result := [] })
    streamWait := streamBit n
    entryWait := [] } := by
  rw [State.closing, State.enterStopping_frame]
  rfl

/-- The stream of a CLOSE_STREAM at the end of the step: CLOSED and answered, or STOPPING and waited for (R129). -/
theorem State.closing_ends {q : CommandInProgress} (hq : s.command.inProgress = some q) (hreports : (s.stream n).reportConsistent = true) :
    let t := ((s.closing n).settle n).examineCommand.finish
    closedStream.grantsTo (t.stream n) ∧ t.port n = quietPort ∧ t.command.phase ≠ .completing
        ∧ (t.heldEvents.getLast? = some (.cmdDone q.seq q.index .ok (padTo 16 []))
          ∨ t.command.slot = some (.cmdDone q.seq q.index .ok (padTo 16 [])))
      ∨ (∃ x b, ((s.stream n).stoppingWith .closed none none).Settles x ∧ x.state = .stopping
          ∧ t.stream n = { x with readPresented := b })
        ∧ t.command.phase = .completing ∧ t.command.inProgress = some { q with result := [] }
        ∧ t.command.streamWait = streamBit n ∧ t.command.entryWait = [] := by
  intro t
  have hcommand := s.closing_command n
  rw [hq, Option.map_some] at hcommand
  have hends := State.settle_closing (s := s.closing n) (n := n) (by rw [State.closing_stream, Stream.stoppingWith_body])
    (by rw [State.closing_stream, Stream.stoppingWith_body])
    (by rw [State.closing_stream]; exact (Stream.stoppingWith_carries _ _ _ _).reports hreports)
  generalize hu : (s.closing n).settle n = u at hends
  have ht : t = u.examineCommand.finish := by rw [← hu]
  obtain ⟨-, hprogress, -, hstreams, hentries⟩ := u.examineCommand.finish_command
  rw [ht]
  rcases hends with hstill | ⟨hclosed, hquiet, hanswered⟩
  · right
    have hsame := hstill.command.trans hcommand
    have hwaits : u.examineCommand = u := State.examineCommand_waits (.inl (by rw [hsame]; exact streamBit_ne_zero n))
    rw [hwaits] at hprogress hstreams hentries ⊢
    rw [hprogress, hstreams, hentries, hsame]
    refine ⟨?_, State.finish_completing (by rw [hsame]), rfl, rfl, rfl⟩
    obtain ⟨b, hb⟩ := State.finish_halted (s := u) (n := n) (by simp [Stream.isTaking, hstill.state])
    exact ⟨u.stream n, b, (s.closing_stream n) ▸ hstill.settles, hstill.state, hb⟩
  · left
    rw [hcommand] at hanswered
    have hexamined := u.examineCommand_apart (fun _ => False)
    have hgrants := u.examineCommand.finish_grantsTo.2.2.1 n
    rw [hexamined.beyond.stream n id, hclosed] at hgrants
    refine ⟨hgrants, ?_, ?_⟩
    · rw [State.port, State.finish_ports]
      exact (hexamined.beyond.port n id).trans hquiet
    · exact State.examineCommand_answers (q := { q with result := [] }) (by rw [hanswered])
        (by rw [hanswered]; exact streamBit_cleared n) (by rw [hanswered]) (by rw [hanswered])

/-- What CLOSE_STREAM leaves beyond its stream. -/
theorem State.closing_apart (hq : s.command.inProgress.isSome = true) :
    State.Apart (· = n) s ((s.closing n).settle n).examineCommand := by
  have K := apart_kept (· = n) s
  exact K.examineCommand (K.settle rfl (K.enterStopping rfl _ _ _ (K.awaitCompletion _ _ _ hq (.refl _ s))))

theorem State.closing_touches (s : State) (n : StreamNo) :
    State.Touches (onlyStream n) s ((s.closing n).settle n).examineCommand :=
  ((((State.awaitCompletion_touches s _ _ _).any _).trans (State.enterStopping_touches _ n _ _ _)).trans
    (State.settle_touches _ n)).trans ((State.examineCommand_touches _).any _)

/-- The reads of a stream that closes stand marked at the end of the step (R66). -/
theorem State.closing_readsDiscarded {v : State} {e : Option TransferId} (hv : s.SameBut e v) :
    s.readsDiscarded ((v.closing n).settle n).examineCommand.finish e n := by
  have hmarks : State.Beyond (· = n) (· = n) (v.awaitCompletion [] (streamBit n) []) (v.closing n) :=
    (beyond_kept (· = n) _).enterStopping rfl _ _ _ (.refl _ _ _)
  refine State.readsDiscarded_of (v := v.closing n) (halted := (· = n)) (fun e' r hne hr => ?_) (fun hd => ?_) (.of_eq ?_)
  · exact (hmarks.transfers e' r (hv.transfers e' r hne hr)).imp_right And.left
  · refine State.enterStopping_allMarked _ _ _ ?_
    show (v.stream n).direction = .output
    rw [State.stream, hv.streams]
    exact hd
  · rw [State.examineCommand_transfers, State.settle_transfers]

/-- A stream without transfers has no read to mark. -/
theorem State.markedTable_of_noTransfers (h : s.noTransfers n = true) : s.markedTable n = s.transfers.table := by
  rw [State.noTransfers, Bool.and_eq_true, beq_iff_eq, beq_iff_eq, State.outstanding_eq_zero_iff] at h
  unfold State.markedTable
  split
  · refine Vector.ext fun i hi => ?_
    rw [Vector.getElem_map]
    cases ht : s.transfer ⟨i, hi⟩ with
    | none =>
      rw [show s.transfers.table[i] = none from ht]
      rfl
    | some t =>
      rw [show s.transfers.table[i] = some t from ht, Option.map_some, Transfer.discarded, if_neg]
      simp [h.1 _ t ht]
  · rfl

/-- A stream with nothing staged, in flight or to report is CLOSED at the execution (R21, R129). -/
theorem State.closing_at_once (hstaging : (s.stream n).staging = []) (hpending : (s.stream n).pendingReport = none)
    (hfault : (s.stream n).faultOwed = none) (hstop : (s.stream n).stopOwed = none) (htransfers : s.noTransfers n = true) :
    (s.closing n).settle n = (s.closing n).enterClosed n := by
  have hstream := s.closing_stream n
  rw [Stream.stoppingWith_body] at hstream
  have hnone : (s.closing n).noTransfers n = true := by
    refine (State.noTransfers_congr (s := s) ?_ n).trans htransfers
    rw [State.closing, State.enterStopping_frame]
    exact State.markedTable_of_noTransfers (s := s.awaitCompletion [] (streamBit n) []) htransfers
  have hhead : (s.closing n).retirableHead n = none := State.retirableHead_of_nil (by rw [hstream]; exact hstaging)
  have hstep : (s.closing n).settleStep n = some ((s.closing n).enterClosed n) := by
    rw [State.settleStep_idle (by rw [hstream]; exact hpending) (by rw [hstream]; exact hfault) hhead (by rw [hstream]; exact hstop),
      if_neg (by rw [hstream]; simp [Stream.drainComplete]), if_pos, State.endStopping_closed (by rw [hstream])]
    simp [State.stoppingEnds, hstream, hstaging, hnone]
  obtain ⟨k, hk⟩ := State.settle_of_step hstep
  rw [hk]
  exact settleFuel_of_isSettled k (State.isSettled_closed (State.stream_putStream _ _ _))

theorem State.noTransfers_putTransfer (e : TransferId) (h : s.noTransfers n = true) : (s.putTransfer e none).noTransfers n = true := by
  simp only [State.noTransfers, Bool.and_eq_true, beq_iff_eq, State.outstanding_eq_zero_iff] at h ⊢
  have hsame (e' : TransferId) (t : Transfer) (ht : (s.putTransfer e none).transfer e' = some t) : s.transfer e' = some t := by
    rcases eq_or_ne e' e with rfl | hne
    · rw [State.transfer_putTransfer] at ht
      cases ht
    · rwa [State.transfer_putTransfer_of_ne s none (Ne.symm hne)] at ht
  exact ⟨fun e' t ht => h.1 e' t (hsame e' t ht), fun e' t ht => h.2 e' t (hsame e' t ht)⟩

/-- CLOSED at the execution: the lane is quiet and the Command Unit waits for nothing. -/
def State.closedAtOnce (s : State) (n : StreamNo) : State :=
  { (s.putStream n closedStream).putPort n quietPort with command := { s.command with streamWait := 0, entryWait := [] } }

/-- A stream that closes at the execution leaves the command to be answered as if it had never waited. -/
theorem State.closing_enterClosed {e : TransferId} {i : Instr} {seq : BitVec 16} {index : Nat} (h : s.noTransfers n = true) :
    ((s.taken e i seq index).closing n).enterClosed n = { (s.closedAtOnce n).taken e i seq index with
      command := { ((s.closedAtOnce n).taken e i seq index).command with phase := .completing } } := by
  have htable : ((s.taken e i seq index).awaitCompletion [] (streamBit n) []).markedTable n = (s.putTransfer e none).transfers.table :=
    State.markedTable_of_noTransfers (State.noTransfers_putTransfer e h)
  rw [State.closing, State.enterStopping_frame, htable]
  unfold State.enterClosed State.streamArrived State.quietLane State.putPort State.putStream
  dsimp only [State.taken, State.closedAtOnce, State.awaitCompletion, State.putStream, State.putPort, State.putTransfer]
  rw [Vector.set_set, streamBit_cleared]
  rfl

/-- The answer that a command in COMPLETING gives when it waits for nothing is that of one that never waited. -/
theorem State.examineCommand_at_once {e : TransferId} {i : Instr} {seq : BitVec 16} {index : Nat}
    (hstreams : s.command.streamWait = 0) (hentries : s.command.entryWait = []) :
    ({ s.taken e i seq index with command := { (s.taken e i seq index).command with phase := .completing } } : State).examineCommand
      = s.answered e i seq index .ok [] .nobody := by
  rw [← State.produceCmdDone_taken]
  unfold State.examineCommand
  rw [if_pos (by simp [State.taken, State.putTransfer, hstreams, hentries])]
  show State.produceCmdDone _ .ok [] .nobody = _
  rw [State.produceCmdDone_eq (q := ⟨i, index, seq, [], .nobody⟩) rfl, State.produceCmdDone_eq (q := ⟨i, index, seq, [], .nobody⟩) rfl]
  rfl

theorem exec_closeStream (e : TransferId) (seq : BitVec 16) (b : BitVec 8) (s : State) :
    exec (.closeStream e seq b) s = .next (s.takeCommand e (.closeStream e seq b) seq (fun s => s.closeStream b)) := rfl

end Sys2Proof.Machine

open Sys2Proof Sys2Proof.Machine

/-- Settles O23: the checks, the stream that stops, and the one that closes at once. -/
theorem closeStreamCloses : Obligations.CloseStreamCloses := by
  intro s e seq index number h n c i answer
  refine ⟨fun hnumber => ⟨_, rfl, ?_⟩, fun hnumber hidle hfaulted => ⟨_, rfl, ?_⟩, fun hnumber hstate hreports => ?_,
    fun hnumber hstate hstaging hpending hfault hstop htransfers => ?_⟩
  · exact State.takeCommand_answered s e _ seq index _ _ _ h (State.closeStream_of_number hnumber)
  · exact State.takeCommand_answered s e _ seq index _ _ _ h ((State.closeStream_of_number_le hnumber).trans (if_pos ⟨hidle, hfaulted⟩))
  · have hexec : exec i s = .next ((((s.taken e i seq index).closing n).settle n).examineCommand.finish) := by
      rw [exec_closeStream, State.takeCommand_eq s e _ seq index _ h, State.closeStream_of_number_le hnumber]
      exact congrArg (fun u : State => Host.Outcome.next u.finish) (if_neg fun k => hstate.elim k.1 k.2)
    have hends := State.closing_ends (s := s.taken e i seq index) (n := n) rfl hreports
    have hapart := State.closing_apart (s := s.taken e i seq index) (n := n) rfl
    refine ⟨_, hexec, ?_, ?_, ?_, ?_, ?_⟩
    · refine hends.imp id ?_
      rintro ⟨⟨x, b, hsettles, hstopping, hfinal⟩, hcommand⟩
      rw [hfinal]
      refine ⟨hstopping, ?_, ?_, fun hd => ?_, fun hd => ?_, hcommand⟩
      · rcases hsettles.links with ⟨-, -, hdestination, -⟩ | ⟨hidle, -⟩
        · exact hdestination.trans (by rw [Stream.stoppingWith_body])
        · rw [hstopping] at hidle
          cases hidle
      · rw [hsettles.body, Stream.stoppingWith_body]
        rfl
      · rw [hsettles.body, Stream.stoppingWith_body]
        exact Stream.emptied_output hd
      · rw [hsettles.body, Stream.stoppingWith_body]
        exact Stream.emptied_capture hd
    · exact State.closing_readsDiscarded (.taken s e i seq index)
    · have htouches := State.closing_touches (s.taken e i seq index) n
      exact (State.Touches.control htouches).trans (State.finish_control _)
    · exact (State.finish_timebase _).trans hapart.timebase
    · exact hapart.beyond.finish (.taken s e i seq index)
  · intro closed
    refine ⟨_, rfl, ?_⟩
    have hexec : s.takeCommand e i seq (fun s => s.closeStream number)
        = (closed.answered e i seq index .ok [] .nobody).finish := by
      rw [State.takeCommand_eq s e _ seq index _ h, State.closeStream_of_number_le hnumber]
      refine congrArg State.finish ((if_neg fun k => hstate.elim k.1 k.2).trans ?_)
      rw [State.closing_at_once (s := s.taken e i seq index) hstaging hpending hfault hstop (State.noTransfers_putTransfer e htransfers),
        State.closing_enterClosed htransfers]
      exact State.examineCommand_at_once rfl rfl
    rw [hexec]
    exact State.finish_grantsTo _

end

section
/-! STOP DRAIN (R14, R136, R137). -/

namespace Sys2Proof.Machine

variable {s : State} {n : StreamNo}

/-! ### The checks of STOP DRAIN -/

theorem mem_streamBit_self (n : StreamNo) : (streamBit n).getLsbD n.val = true := by
  fin_cases n <;> decide

theorem streamsOf_streamBit (n : StreamNo) : streamsOf (streamBit n) = [n] := by
  fin_cases n <;> decide

/-- What the checks of a STOP DRAIN say of its stream (R132). -/
theorem State.stopRefusal_drain {p : ScheduleParams} (h : s.stopRefusal p = none) (hcode : p.condition = condDrain)
    (hset : p.streams = streamBit n) : (s.stream n).isRunning = true ∧ (s.stream n).inTail = false := by
  have hnow : ¬p.condition = condNow := by rw [hcode]; decide
  obtain ⟨_, h⟩ := of_ite_some_eq_none h
  obtain ⟨_, h⟩ := of_ite_some_eq_none h
  obtain ⟨_, h⟩ := of_ite_some_eq_none h
  obtain ⟨_, h⟩ := of_ite_some_eq_none h
  rw [if_neg hnow] at h
  obtain ⟨hrunning, h⟩ := of_ite_some_eq_none h
  obtain ⟨hbusy, -⟩ := of_ite_some_eq_none h
  have hnamed : p.streams.getLsbD n.val = true := by rw [hset]; exact mem_streamBit_self n
  constructor
  · by_contra hr
    exact hrunning ⟨n, hnamed, by simpa using hr⟩
  · by_contra ht
    exact hbusy ⟨n, hnamed, .inr (.inr (by simpa using ht))⟩

/-- Outside the tail of a run no report of a drain waits. -/
theorem Stream.not_drainRun {c : Stream} (hreports : c.reportConsistent = true) (htail : c.inTail = false) :
    c.pendingReport.any (fun r => r.drainRun) = false := by
  obtain ⟨-, hpending, -⟩ := (Stream.reportConsistent_iff c).1 hreports
  rw [Stream.inTail, Bool.or_eq_false_iff] at htail
  cases hp : c.pendingReport with
  | none => rfl
  | some r =>
    rw [hp, Option.any_some] at htail
    rw [Option.any_some]
    refine Bool.eq_false_iff.2 fun hd => ?_
    rw [hpending r hp hd] at htail
    exact absurd htail.2 (by decide)

/-! ### The drain -/

/-- The context as a drain begins (R14). -/
def Stream.draining (c : Stream) (answered : Bool) : Stream :=
  { c with state := .draining, drainLimit := some c.producer, drainAnswered := answered }

theorem State.drainStream_eq (s : State) (n : StreamNo) : s.drainStream n =
    ((s.putStream n ((s.stream n).draining false)).settle n).produceCmdDone .pending
      (leBytes 2 (s.stream n).producer ++ leBytes 2 (s.stream n).consumer) (.drain n) := rfl

/-- A drain with something left to drain leaves a settled stream settled. -/
theorem State.isSettled_draining {t : State} (h : s.isSettled n = true) (ht : (s.stream n).isTaking = true)
    (hleft : (s.stream n).staging ≠ [] ∨ (s.stream n).consumer ≠ (s.stream n).producer) {answered : Bool}
    (hstream : t.stream n = (s.stream n).draining answered) : t.isSettled n = true := by
  rw [State.isSettled_iff_rests] at h ⊢
  rw [hstream]
  refine h.imp id fun hrests => ?_
  obtain ⟨hfault, hhead, hstop, -⟩ := (Stream.rests_taking_iff ht _).1 hrests
  refine (Stream.rests_taking_iff (c := (s.stream n).draining answered) rfl _).2 ⟨hfault, hhead, hstop, ?_⟩
  rw [Stream.drainComplete, Stream.draining, Bool.and_eq_false_iff, Bool.and_eq_false_iff]
  rcases hleft with hstaging | hindex
  · exact .inl (.inr (List.isEmpty_eq_false_iff.2 hstaging))
  · exact .inr (beq_eq_false_iff_ne.2 fun k => hindex (Option.some.inj k).symm)

/-- The beginning of a drain changes no waiting producer, where no report of a drain waits. -/
theorem State.roomFor_draining {answered : Bool} (h : (s.stream n).pendingReport.any (fun r => r.drainRun) = false) :
    (s.putStream n ((s.stream n).draining answered)).roomFor commandProducer = s.roomFor commandProducer := by
  refine State.roomFor_command rfl rfl rfl fun m => ?_
  rcases eq_or_ne m n with rfl | hne
  · rw [State.stream_putStream]
    show ((s.stream m).pendingReport.isSome && !((s.stream m).pendingReport.any (fun r => r.drainRun) && !answered)) = _
    rw [Stream.reportWaits, Stream.reportGated, h]
    rfl
  · rw [State.stream_putStream_of_ne s _ hne.symm]

/-- The Command Unit is READY for the next command (R123). -/
def State.commandReady (s : State) : State :=
  { s with command := { s.command with phase := .ready, inProgress := none, slot := none } }

/-- A drain is told that its answer is placed: its held STOP_DONE may be offered (R137). -/
theorem State.cmdDonePlaced_drain {c : Stream} (h : s.stream n = c) : s.cmdDonePlaced (.drain n) =
    (if c.reportGated && (s.commandReady.putStream n { c with drainAnswered := true }).roomFor (streamProducer n) then
      (s.commandReady.putStream n { c with drainAnswered := true }).placePending n
    else s.commandReady.putStream n { c with drainAnswered := true }).settle n := by
  rw [← h]
  rfl

/-- A drain with something left is answered and goes on (R136, R137). -/
theorem State.drainStream_goes_on {e : TransferId} {i : Instr} {seq : BitVec 16} {index : Nat} (h : s.isSettled n = true)
    (hrunning : (s.stream n).isRunning = true) (hreport : (s.stream n).pendingReport.any (fun r => r.drainRun) = false)
    (hleft : (s.stream n).staging ≠ [] ∨ (s.stream n).consumer ≠ (s.stream n).producer) :
    (s.taken e i seq index).drainStream n
      = (s.putStream n ((s.stream n).draining (s.roomFor commandProducer))).answered e i seq index .pending
        (leBytes 2 (s.stream n).producer ++ leBytes 2 (s.stream n).consumer) (.drain n) := by
  have htaking := Stream.isTaking_of_running hrunning
  have hsettled : ((s.taken e i seq index).putStream n ((s.stream n).draining false)).isSettled n = true :=
    State.isSettled_draining h htaking hleft (State.stream_putStream _ _ _)
  have hroom : ((s.taken e i seq index).putStream n ((s.stream n).draining false)).roomFor commandProducer
      = s.roomFor commandProducer :=
    (State.roomFor_draining (s := s.taken e i seq index) hreport).trans (State.roomFor_command rfl rfl rfl fun _ => rfl)
  rw [State.drainStream_eq, show (s.taken e i seq index).stream n = s.stream n from rfl, State.settle_of_isSettled hsettled,
    State.produceCmdDone_eq (q := ⟨i, index, seq, [], .nobody⟩) rfl, hroom]
  have hroom' (answered : Bool) : ((s.putStream n ((s.stream n).draining answered)).putTransfer e none).roomFor commandProducer
      = s.roomFor commandProducer := State.roomFor_draining (s := s) hreport
  unfold State.answered
  dsimp only
  rw [hroom']
  cases hr : s.roomFor commandProducer with
  | false => rfl
  | true =>
    have hgated : ((s.stream n).draining false).reportGated = false := by
      show ((s.stream n).pendingReport.any (fun r => r.drainRun) && !false) = false
      rw [hreport]
      rfl
    have hstream (ev : Event) : (((s.taken e i seq index).putStream n ((s.stream n).draining false)).accept ev).stream n
        = (s.stream n).draining false := State.stream_putStream _ _ _
    rw [if_pos rfl, if_pos rfl, State.cmdDonePlaced_drain (hstream _), hgated, Bool.false_and, if_neg (by decide)]
    refine (State.settle_of_isSettled (State.isSettled_draining (answered := true) h htaking hleft
      (State.stream_putStream _ _ _))).trans ?_
    unfold State.putStream State.commandReady
    dsimp only [State.accept, State.taken, State.putTransfer]
    rw [Vector.set_set]

/-! ### An empty drain -/

/-- The context once an empty drain has completed: its STOP_DONE waits for the answer (R15, R137). -/
def Stream.drained (c : Stream) (n : StreamNo) : Stream :=
  { c.draining false with
    pendingReport := some ⟨.streamStopDone n c.generator .drain c.finalPosition, true⟩ }

/-- A drain with nothing left completes at once, and its STOP_DONE waits for the answer (R15, R137). -/
theorem State.settle_drained {x : State} {c : Stream} (hstream : x.stream n = c.draining false) (hpending : c.pendingReport = none)
    (hfault : c.faultOwed = none) (hstop : c.stopOwed = none) (hstaging : c.staging = []) (hindex : c.consumer = c.producer) :
    x.settle n = x.putStream n (c.drained n) := by
  have hcomplete : (c.draining false).drainComplete = true := by
    simp [Stream.drainComplete, Stream.draining, hstaging, hindex]
  have hhead (y : State) (hy : (y.stream n).staging = []) : y.retirableHead n = none := State.retirableHead_of_nil hy
  have hfirst : x.settleStep n = some (x.putStream n { c.draining false with stopOwed := some ⟨.drain, true⟩ }) := by
    rw [State.settleStep_idle (by rw [hstream]; exact hpending) (by rw [hstream]; exact hfault)
      (hhead x (by rw [hstream]; exact hstaging)) (by rw [hstream]; exact hstop), hstream, if_pos hcomplete]
  have hsecond : (x.putStream n { c.draining false with stopOwed := some ⟨.drain, true⟩ }).settleStep n
      = some (x.putStream n (c.drained n)) := by
    have howes : (x.putStream n { c.draining false with stopOwed := some ⟨.drain, true⟩ }).stream n
        = { c.draining false with stopOwed := some ⟨.drain, true⟩ } := State.stream_putStream _ _ _
    rw [State.settleStep_stopDone (o := ⟨.drain, true⟩) (by rw [howes]; exact hpending) (by rw [howes]; exact hfault)
      (hhead _ (by rw [howes]; exact hstaging)) (by rw [howes]), howes, State.produce_waits _ rfl, State.putStream_putStream]
    refine congrArg some (congrArg (x.putStream n) ?_)
    rw [Stream.drained, Stream.draining, hstop]
    rfl
  have hwaits : (x.putStream n (c.drained n)).isSettled n = true :=
    State.isSettled_iff.2 (.inl (by rw [State.stream_putStream]; nofun))
  unfold State.settle
  rw [settleFuel, hfirst]
  dsimp only
  rw [settleFuel, hsecond]
  exact settleFuel_of_isSettled _ hwaits

/-- While no producer of `s` waits, none does once a drain has completed and waits for its answer. -/
theorem State.waits_drained {x : State} (h : ∀ q, s.waits q = false) (schedule : x.schedule = s.schedule)
    (lost : x.timebase = s.timebase) (streams : ∀ m, m ≠ n → x.stream m = s.stream m) (hc : (x.stream n).reportWaits = false)
    (hslot : x.command.slot = none) (q : Producer) : x.waits q = false := by
  refine producer_cases (P := fun q => x.waits q = false) ?_ ?_ ?_ (fun m => ?_) q
  · rw [State.waits_commandProducer, hslot]
    rfl
  · have hsame : x.offerableClosing = s.offerableClosing := State.offerableClosing_congr (by rw [schedule]) (by rw [schedule])
    have hnone := h scheduleProducer
    rwa [State.waits_scheduleProducer, ← hsame] at hnone
  · have hnone := h timebaseProducer
    rwa [State.waits_timebaseProducer, ← lost] at hnone
  · rw [State.waits_streamProducer]
    rcases eq_or_ne m n with rfl | hne
    · exact hc
    · have hnone := h (streamProducer m)
      rwa [State.waits_streamProducer, ← streams m hne] at hnone

/-- The STOP_DONE of a drain that waits is placed once its gate opens, and the stream is IDLE (R15, R137). -/
theorem State.placePending_drained {x : State} {c : Stream} (hstream : x.stream n = { c.drained n with drainAnswered := true })
    (hfault : c.faultOwed = none) (hstop : c.stopOwed = none) (hstaging : c.staging = []) :
    ((x.placePending n).settle n).heldEvents = x.heldEvents ++ [.streamStopDone n c.generator .drain c.finalPosition]
      ∧ (((x.placePending n).settle n).stream n).state = .idle := by
  obtain ⟨y, hplaced, hidle, hheld⟩ : ∃ y, x.placePending n = y
      ∧ y.stream n = ({ c.drained n with drainAnswered := true, pendingReport := none } : Stream).toIdle
      ∧ y.heldEvents = x.heldEvents ++ [.streamStopDone n c.generator .drain c.finalPosition] := by
    refine ⟨_, rfl, ?_⟩
    unfold State.placePending
    rw [hstream]
    dsimp only [Stream.drained]
    rw [State.reportPlaced_eq, State.stream_modifyStream, State.accept_stream, hstream]
    exact ⟨State.stream_putStream _ _ _, State.accept_heldEvents _ _⟩
  rw [hplaced, State.settle_of_isSettled]
  · exact ⟨hheld, by rw [hidle]; rfl⟩
  · rw [State.isSettled_iff_rests, hidle]
    refine .inr ((Stream.rests_taking_iff rfl _).2 ⟨hfault, fun r hr => ?_, hstop, rfl⟩)
    rw [show (({ c.drained n with drainAnswered := true, pendingReport := none } : Stream).toIdle).staging = c.staging from rfl,
      hstaging] at hr
    cases hr

/-- The context of a drain that has completed leaves its STOP_DONE gated (R137). -/
theorem Stream.drained_gated (c : Stream) (n : StreamNo) : (c.drained n).reportGated = true ∧ (c.drained n).reportWaits = false :=
  ⟨rfl, rfl⟩

theorem State.roomFor_of_waits {p : Producer} (hfree : s.events.holding.length < 8) (h : ∀ q, s.waits q = false) :
    s.roomFor p = true :=
  (s.roomFor_iff p).2 ⟨(s.placeFree_iff).2 hfree, fun q _ => h q⟩

/-- With two free places the answer of a drain that has completed is placed, and its STOP_DONE directly behind it (R137). -/
theorem State.drained_answered {x : State} {c : Stream} {q : CommandInProgress} (hprogress : x.command.inProgress = some q)
    (hstream : x.stream n = c.drained n) (hfault : c.faultOwed = none) (hstop : c.stopOwed = none) (hstaging : c.staging = [])
    (hfree : x.events.holding.length + 2 ≤ 8) (hwaits : ∀ q, x.waits q = false) (st : Status) (result : List Byte) :
    (x.produceCmdDone st result (.drain n)).heldEvents = x.heldEvents
        ++ [.cmdDone q.seq q.index st (padTo 16 result), .streamStopDone n c.generator .drain c.finalPosition]
      ∧ ((x.produceCmdDone st result (.drain n)).stream n).state = .idle := by
  rw [State.produceCmdDone_eq hprogress, if_pos (State.roomFor_of_waits (by omega) hwaits)]
  generalize Event.cmdDone q.seq q.index st (padTo 16 result) = answer
  have hanswered : (x.accept answer).stream n = c.drained n := hstream
  rw [State.cmdDonePlaced_drain hanswered, (Stream.drained_gated c n).1, Bool.true_and]
  generalize hy : (x.accept answer).commandReady.putStream n { c.drained n with drainAnswered := true } = y
  have hopened : y.stream n = { c.drained n with drainAnswered := true } := by
    rw [← hy]
    exact State.stream_putStream _ _ _
  have hheld : y.heldEvents = x.heldEvents ++ [answer] := by
    rw [← hy]
    exact State.accept_heldEvents _ _
  have hlength : y.events.holding.length < 8 := by
    have h : y.events.holding = x.events.holding ++ [⟨answer, false⟩] := by rw [← hy]; rfl
    rw [h, List.length_append, List.length_singleton]
    omega
  have hnone (p : Producer) (hp : p ≠ streamProducer n) : y.waits p = false := by
    revert hp
    refine producer_cases (P := fun p => p ≠ streamProducer n → y.waits p = false) (fun _ => ?_) (fun _ => ?_) (fun _ => ?_)
      (fun m hm => ?_) p
    · rw [State.waits_commandProducer, ← hy]
      rfl
    · have hsame : y.offerableClosing = x.offerableClosing :=
        State.offerableClosing_congr (by rw [← hy]; rfl) (by rw [← hy]; rfl)
      rw [State.waits_scheduleProducer, hsame, ← State.waits_scheduleProducer]
      exact hwaits _
    · rw [← hwaits timebaseProducer, State.waits_timebaseProducer, State.waits_timebaseProducer, ← hy]
      rfl
    · have hother : y.stream m = x.stream m := by
        rw [← hy]
        exact State.stream_putStream_of_ne _ _ fun h => hm (congrArg streamProducer h.symm)
      rw [State.waits_streamProducer, hother, ← State.waits_streamProducer]
      exact hwaits _
  have hroom : y.roomFor (streamProducer n) = true := (y.roomFor_iff _).2 ⟨y.placeFree_iff.2 hlength, hnone⟩
  obtain ⟨hplaced, hidle⟩ := State.placePending_drained hopened hfault hstop hstaging
  rw [if_pos hroom]
  exact ⟨by rw [hplaced, hheld, List.append_assoc, List.singleton_append], hidle⟩

/-- Without a free place the answer of a drain that has completed waits, and its STOP_DONE stays behind it (R137). -/
theorem State.drained_waits {x : State} {q : CommandInProgress} (hprogress : x.command.inProgress = some q)
    (hfull : 8 ≤ x.events.holding.length) (st : Status) (result : List Byte) :
    (x.produceCmdDone st result (.drain n)).heldEvents = x.heldEvents
      ∧ (x.produceCmdDone st result (.drain n)).command.slot = some (.cmdDone q.seq q.index st (padTo 16 result))
      ∧ (x.produceCmdDone st result (.drain n)).stream n = x.stream n := by
  have hroom : ¬x.roomFor commandProducer = true := fun h => by
    have := (x.placeFree_iff).1 ((x.roomFor_iff _).1 h).1
    omega
  rw [State.produceCmdDone_eq hprogress, if_neg hroom]
  exact ⟨rfl, rfl, rfl⟩

/-- What STOP DRAIN leaves beyond its stream. -/
theorem State.drainStream_touches (s : State) (n : StreamNo) : State.Touches (onlyStream n) s (s.drainStream n) :=
  ((State.putStream_touches s n _).trans (State.settle_touches _ n)).trans (State.produceCmdDone_touches _ _ _ (.drain n))

theorem State.drainStream_beyond (s : State) (n : StreamNo) :
    State.Beyond (fun m => m = n) (fun _ => False) s (s.drainStream n) := by
  refine (s.drainStream_touches n).beyond ?_ ?_
  · refine (eventsGrow_kept s).produceCmdDone _ _ _ (fun _ _ => trivial) ((eventsGrow_kept s).settle trivial ?_)
    exact .of_eq rfl
  · rw [State.drainStream_eq, State.produceCmdDone_transfers, State.settle_transfers]
    rfl

end Sys2Proof.Machine

open Sys2Proof Sys2Proof.Machine

/-- Settles O26: the drain goes on, or completes at once and is reported behind its answer. -/
theorem stopDrainBeginsDrain : Obligations.StopDrainBeginsDrain := by
  intro s e seq index p n h hrefusal hcode hset hsettled hreports c i result stopDone answer draining
  obtain ⟨hrunning, htail⟩ := State.stopRefusal_drain hrefusal hcode hset
  have hgated := Stream.not_drainRun hreports htail
  have hexec : exec i s = .next ((s.taken e i seq index).drainStream n).finish := by
    rw [exec_stop (.inr (.inr (.inr rfl))), State.takeCommand_eq s e i seq index _ h, State.stop_eq,
      show (s.taken e i seq index).stopRefusal p = s.stopRefusal p from rfl, hrefusal]
    have hstops : (s.taken e i seq index).stops p = (s.taken e i seq index).drainStream n := by
      rw [State.stops, if_neg (by rw [hcode]; decide), if_pos hcode, hset, streamsOf_streamBit]
      rfl
    exact congrArg (fun u : State => Host.Outcome.next u.finish) hstops
  refine ⟨fun hleft => ⟨_, hexec, ?_⟩, fun hstaging hindex hpending hwaits => ⟨_, hexec, ?_⟩⟩
  · rw [State.drainStream_goes_on hsettled hrunning hgated hleft]
    exact State.finish_grantsTo _
  · have hrests := ((State.isSettled_iff_rests s n).1 hsettled).resolve_left (not_not_intro hpending)
    have hdrained : (s.taken e i seq index).drainStream n
        = ((s.taken e i seq index).putStream n (c.drained n)).produceCmdDone .pending result (.drain n) := by
      rw [State.drainStream_eq, show (s.taken e i seq index).stream n = c from rfl, State.settle_drained (c := c)
        (State.stream_putStream _ _ _) hpending hrests.fault hrests.stop hstaging hindex, State.putStream_putStream]
    have hstream : ((s.taken e i seq index).putStream n (c.drained n)).stream n = c.drained n := State.stream_putStream _ _ _
    have hslot : s.command.slot = none := by simpa [State.waits_commandProducer] using hwaits commandProducer
    have hothers (m : StreamNo) (hm : m ≠ n) : ((s.taken e i seq index).putStream n (c.drained n)).stream m = s.stream m :=
      State.stream_putStream_of_ne _ _ hm.symm
    have hquiet := State.waits_drained (n := n) (x := (s.taken e i seq index).putStream n (c.drained n)) hwaits rfl rfl hothers
      (by rw [hstream]; rfl) hslot
    have htouches := State.drainStream_touches (s.taken e i seq index) n
    refine ⟨fun hfree => ?_, fun hfull => ?_, ?_, ?_, ?_⟩
    · obtain ⟨hheld, hidle⟩ := State.drained_answered (q := ⟨i, index, seq, [], .nobody⟩) rfl hstream hrests.fault hrests.stop
        hstaging hfree hquiet .pending result
      rw [hdrained, State.finish_heldEvents, State.finish_body]
      exact ⟨hheld, hidle⟩
    · obtain ⟨hheld, hslot, hstays⟩ := State.drained_waits (x := (s.taken e i seq index).putStream n (c.drained n))
        (q := ⟨i, index, seq, [], .nobody⟩) (n := n) rfl hfull .pending result
      rw [hdrained, State.finish_heldEvents, (State.finish_command _).1, State.waits_streamProducer, State.finish_body, hstays,
        hstream]
      exact ⟨hheld, hslot, rfl, rfl, (Stream.drained_gated c n).2⟩
    · exact (State.Touches.control htouches).trans (State.finish_control _)
    · exact (State.finish_timebase _).trans htouches.timebase
    · exact (State.drainStream_beyond _ n).finish (.taken s e i seq index)

end

section
/-! The Schedule Table as the shared operations leave it: each entry stands, changed as they say, or its closing event is
placed. The claims on the Schedule Unit are cases (R102 to R107). -/

namespace Sys2Proof.Machine

variable {s t u : State}

/-- A change of single entries that leaves each its id and its call. -/
def SameCalls (R : ScheduleEntry → ScheduleEntry → Prop) : Prop := ∀ x y, R x y → x.SameCall y

/-- Every entry of `s` stands in `t` changed by `R`, or is gone with the closing event that `R` gives it placed. -/
structure State.Leads (R : ScheduleEntry → ScheduleEntry → Prop) (s t : State) : Prop where
  consistent : entriesConsistent t.schedule.entries
  entries : EntriesFrom s.schedule.entries t.schedule.entries
  held : s.heldEvents <+: t.heldEvents
  fates : ∀ x ∈ s.schedule.entries, (∃ y ∈ t.schedule.entries, R x y)
    ∨ (∀ y ∈ t.schedule.entries, y.id ≠ x.id) ∧ ∃ y, R x y ∧ ∃ ev ∈ y.closing, ev ∈ t.heldEvents

namespace State.Leads

variable {R R' Q : ScheduleEntry → ScheduleEntry → Prop}

/-- Two changes in a row; an entry that is placed between them is one that the first has decided. -/
theorem trans (hcalls : SameCalls R) (h : State.Leads R s t) (k : State.Leads R' t u)
    (both : ∀ x ∈ s.schedule.entries, ∀ y z, R x y → R' y z → Q x z)
    (placed : ∀ x ∈ s.schedule.entries, ∀ y, R x y → y.closing ≠ none → Q x y) : State.Leads Q s u where
  consistent := k.consistent
  entries := h.entries.trans k.entries
  held := h.held.trans k.held
  fates := fun x hx => by
    rcases h.fates x hx with ⟨y, hy, hxy⟩ | ⟨hgone, y, hxy, ev, hev, hheld⟩
    · rcases k.fates y hy with ⟨z, hz, hyz⟩ | ⟨hgone, z, hyz, hplaced⟩
      · exact .inl ⟨z, hz, both x hx y z hxy hyz⟩
      · have hid : y.id = x.id := (hcalls x y hxy).1
        exact .inr ⟨fun w hw => hid ▸ hgone w hw, z, both x hx y z hxy hyz, hplaced⟩
    · refine .inr ⟨fun w hw hid => ?_, y, placed x hx y hxy (fun hnone => by simp [hnone] at hev), ev, hev, k.held.subset hheld⟩
      obtain ⟨v, hv, hvw, -⟩ := k.entries w hw
      exact hgone v hv (hvw.symm.trans hid)

/-- A change of every entry of the table, which places no event. -/
theorem map {f : ScheduleEntry → ScheduleEntry} (h : entriesConsistent t.schedule.entries)
    (entries : t.schedule.entries = s.schedule.entries.map f) (held : t.heldEvents = s.heldEvents)
    (calls : ∀ x : ScheduleEntry, x.SameCall (f x)) (hR : ∀ x ∈ s.schedule.entries, R x (f x)) : State.Leads R s t where
  consistent := h
  entries := entries ▸ .map _ calls
  held := held ▸ List.prefix_rfl
  fates := fun x hx => .inl ⟨f x, entries ▸ List.mem_map_of_mem hx, hR x hx⟩

/-- What an entry has become in the table, or in the event that closed it. -/
theorem closesWith {x : ScheduleEntry} {st : EntryState} {ev : Event} (h : State.Leads R s t) (hx : x ∈ s.schedule.entries)
    (hR : ∀ y, R x y → y.id = x.id ∧ y.state = st ∧ y.closing = some ev) : t.closesWith x.id st ev := by
  rcases h.fates x hx with ⟨y, hy, hxy⟩ | ⟨hgone, y, hxy, ev', hev, hheld⟩
  · obtain ⟨hid, hstate, hclosing⟩ := hR y hxy
    refine ⟨fun z hz hzid => ?_, fun hgone => absurd hid (hgone y hy)⟩
    obtain rfl : z = y := List.inj_on_of_nodup_map h.consistent.1 hz hy (hzid.trans hid.symm)
    exact ⟨hstate, hclosing⟩
  · obtain ⟨-, -, hclosing⟩ := hR y hxy
    obtain rfl : ev = ev' := by simpa [hclosing] using hev
    exact ⟨fun z hz hzid => absurd hzid (hgone z hz), fun _ => hheld⟩

end State.Leads

/-! ### The offering -/

/-- The entry as it was. -/
def ScheduleEntry.Stays (x y : ScheduleEntry) : Prop := y = x

theorem sameCalls_stays : SameCalls ScheduleEntry.Stays := fun x _ h => h ▸ .refl x

theorem State.leads_of_same (h : entriesConsistent s.schedule.entries) {R : ScheduleEntry → ScheduleEntry → Prop}
    (hR : ∀ x ∈ s.schedule.entries, R x x) : State.Leads R s s :=
  ⟨h, .refl _, List.prefix_rfl, fun x hx => .inl ⟨x, hx, hR x hx⟩⟩

theorem State.placeClosing_leads (h : entriesConsistent s.schedule.entries) {e : ScheduleEntry} {ev : Event}
    (ho : s.offerableClosing = some (e, ev)) : State.Leads ScheduleEntry.Stays s (s.placeClosing e ev) where
  consistent := h.filter _
  entries := .filter _ _
  held := ⟨[ev], (s.accept_heldEvents ev).symm⟩
  fates := fun x hx => by
    obtain ⟨hmem, hclosing⟩ := State.offerableClosing_mem ho
    by_cases hid : x.id = e.id
    · obtain rfl : x = e := List.inj_on_of_nodup_map h.1 hx hmem hid
      refine .inr ⟨fun y hy => ?_, x, rfl, ev, hclosing, ?_⟩
      · simpa using (List.mem_filter.1 hy).2
      · show ev ∈ (s.accept ev).heldEvents
        rw [State.accept_heldEvents]
        exact List.mem_append_right _ (List.mem_singleton_self ev)
    · exact .inl ⟨x, List.mem_filter.2 ⟨hx, by simpa using hid⟩, rfl⟩

theorem State.offerSchedule_leads (h : entriesConsistent s.schedule.entries) : State.Leads ScheduleEntry.Stays s s.offerSchedule := by
  unfold State.offerSchedule
  generalize s.schedule.entries.length = k
  induction k generalizing s with
  | zero => exact State.leads_of_same h fun _ _ => rfl
  | succ k ih =>
    unfold offerClosingFuel
    split
    · exact State.leads_of_same h fun _ _ => rfl
    · rename_i e ev ho
      split
      · have hplaced := State.placeClosing_leads h ho
        exact hplaced.trans sameCalls_stays (ih hplaced.consistent) (fun _ _ _ _ hxy hyz => hyz.trans hxy) (fun _ _ _ hxy _ => hxy)
      · exact State.leads_of_same h fun _ _ => rfl

/-! ### The decision -/

/-- Entry `y` is `x` after the decision of the entry with that id. -/
def ScheduleEntry.Decides (id : EntryId) (st : EntryState) (ev : Event) (x y : ScheduleEntry) : Prop :=
  y = if x.id = id then { x with state := st, closing := some ev, behind := y.behind } else { x with behind := y.behind }

theorem sameCalls_decides (id : EntryId) (st : EntryState) (ev : Event) : SameCalls (ScheduleEntry.Decides id st ev) := fun x y h => by
  rw [h]
  split <;> exact ⟨rfl, rfl, rfl, rfl, rfl, rfl⟩

theorem State.decideEntry_leads (h : entriesConsistent s.schedule.entries) (id : EntryId) {st : EntryState} {ev : Event}
    (hs : st = .firedUnreported ∨ st = .clearedUnreported) (he : ev.closesEntry id = true) :
    State.Leads (ScheduleEntry.Decides id st ev) s (s.decideEntry id st ev) := by
  refine .map (ScheduleUnit.Moves.consistent (.decides id st ev hs he _) h) rfl rfl (fun x => ?_) (fun x _ => ?_)
  · dsimp only
    split <;> exact ⟨rfl, rfl, rfl, rfl, rfl, rfl⟩
  · unfold ScheduleEntry.Decides
    simp only [beq_iff_eq]
    split <;> rfl

/-- A decision and the offering behind it. -/
theorem State.decided_leads (h : entriesConsistent s.schedule.entries) (id : EntryId) {st : EntryState} {ev : Event}
    (hs : st = .firedUnreported ∨ st = .clearedUnreported) (he : ev.closesEntry id = true) :
    State.Leads (ScheduleEntry.Decides id st ev) s (s.decideEntry id st ev).offerSchedule := by
  have hdecided := State.decideEntry_leads h id hs he
  exact hdecided.trans (sameCalls_decides id st ev) (State.offerSchedule_leads hdecided.consistent)
    (fun _ _ _ _ hxy hyz => by cases hyz; exact hxy) (fun _ _ _ hxy _ => hxy)

theorem State.closesWith_decided {x : ScheduleEntry} {st : EntryState} {ev : Event}
    (h : State.Leads (ScheduleEntry.Decides x.id st ev) s t) (hx : x ∈ s.schedule.entries) : t.closesWith x.id st ev :=
  h.closesWith hx fun y hy => by
    rw [hy, if_pos rfl]
    exact ⟨rfl, rfl, rfl⟩

/-- The rest of the row leaves the table and the held events alone. -/
theorem State.closesWith_of_same {id : EntryId} {st : EntryState} {ev : Event} (h : t.closesWith id st ev)
    (entries : u.schedule.entries = t.schedule.entries) (held : t.heldEvents <+: u.heldEvents) : u.closesWith id st ev := by
  unfold State.closesWith
  rw [entries]
  exact ⟨h.1, fun k => held.subset (h.2 k)⟩

theorem State.entry?_of_mem (h : entriesConsistent s.schedule.entries) {x : ScheduleEntry} (hx : x ∈ s.schedule.entries) :
    s.entry? x.id = some x := by
  cases hf : s.entry? x.id with
  | none => simpa using List.find?_eq_none.1 hf x hx
  | some e => rw [h.eq_of_find hf hx rfl]

theorem State.examineCommand_schedule_held (s : State) : s.examineCommand.schedule = s.schedule
    ∧ s.heldEvents <+: s.examineCommand.heldEvents :=
  ⟨s.examineCommand_schedule, (s.examineCommand_apart noStream).beyond.events.heldEvents⟩

/-! ### The clearing of entries -/

/-- Entry `y` is `x` after the clearing of the WAITING entries among those ids. -/
def ScheduleEntry.Clears (reason : ClearReason) (ids : List EntryId) (x y : ScheduleEntry) : Prop :=
  y = if x.state = .waiting ∧ x.id ∈ ids then
    { x with state := .clearedUnreported, closing := some (.entryCleared x.id x.kind reason), behind := y.behind }
  else { x with behind := y.behind }

theorem sameCalls_clears (reason : ClearReason) (ids : List EntryId) : SameCalls (ScheduleEntry.Clears reason ids) := fun x y h => by
  rw [h]
  split <;> exact ⟨rfl, rfl, rfl, rfl, rfl, rfl⟩

theorem State.clearEntry_leads (h : entriesConsistent s.schedule.entries) (id : EntryId) (reason : ClearReason) :
    State.Leads (ScheduleEntry.Clears reason [id]) s (s.clearEntry id reason) := by
  have hkept (hnone : ∀ x ∈ s.schedule.entries, ¬(x.state = .waiting ∧ x.id ∈ [id])) :
      State.Leads (ScheduleEntry.Clears reason [id]) s s := State.leads_of_same h fun x hx => by
    rw [ScheduleEntry.Clears, if_neg (hnone x hx)]
  unfold State.clearEntry
  split
  · rename_i hnone
    refine hkept fun x hx hw => ?_
    simpa [List.mem_singleton.1 hw.2] using List.find?_eq_none.1 hnone x hx
  · rename_i e he
    have hid := State.entry?_id he
    split
    · rename_i hw
      have hdecided := State.decided_leads h id (.inr rfl : EntryState.clearedUnreported = _ ∨ _)
        (ev := .entryCleared id e.kind reason) (by simp [Event.closesEntry])
      refine { hdecided with fates := fun x hx => ?_ }
      have himp (y : ScheduleEntry) (hy : x.Decides id .clearedUnreported (.entryCleared id e.kind reason) y) :
          x.Clears reason [id] y := by
        unfold ScheduleEntry.Decides at hy
        unfold ScheduleEntry.Clears
        by_cases hxid : x.id = id
        · obtain rfl := h.eq_of_find he hx hxid
          subst hxid
          rw [if_pos rfl] at hy
          rwa [if_pos ⟨by simpa using hw, List.mem_singleton_self _⟩]
        · rw [if_neg hxid] at hy
          rwa [if_neg (by simp [hxid])]
      exact (hdecided.fates x hx).imp (fun ⟨y, hy, hxy⟩ => ⟨y, hy, himp y hxy⟩)
        fun ⟨hgone, y, hxy, hplaced⟩ => ⟨hgone, y, himp y hxy, hplaced⟩
    · rename_i hw
      refine hkept fun x hx hx' => hw ?_
      obtain rfl := h.eq_of_find he hx (List.mem_singleton.1 hx'.2)
      simpa using hx'.1

/-- The clearing of several entries, one after the other. -/
theorem State.foldl_clearEntry_leads (h : entriesConsistent s.schedule.entries) (reason : ClearReason) (ids : List EntryId) :
    State.Leads (ScheduleEntry.Clears reason ids) s (ids.foldl (fun s id => s.clearEntry id reason) s) := by
  induction ids generalizing s with
  | nil => exact State.leads_of_same h fun x _ => by rw [ScheduleEntry.Clears, if_neg (by simp)]
  | cons id ids ih =>
    have hfirst := State.clearEntry_leads h id reason
    refine hfirst.trans (sameCalls_clears reason [id]) (ih hfirst.consistent) (fun x _ y z hxy hyz => ?_) (fun x hx y hxy hclosing => ?_)
    · unfold ScheduleEntry.Clears at hxy hyz ⊢
      by_cases hfirst : x.state = .waiting ∧ x.id ∈ [id]
      · rw [if_pos hfirst] at hxy
        rw [if_neg (by rw [hxy]; nofun)] at hyz
        rw [if_pos ⟨hfirst.1, List.mem_cons.2 (.inl (List.mem_singleton.1 hfirst.2))⟩, hyz, hxy]
      · rw [if_neg hfirst] at hxy
        have hsame : (x.state = .waiting ∧ x.id ∈ id :: ids) ↔ (y.state = .waiting ∧ y.id ∈ ids) := by
          rw [hxy, List.mem_cons]
          exact and_congr_right fun hw => or_iff_right fun hid => hfirst ⟨hw, List.mem_singleton.2 hid⟩
        rw [if_congr hsame rfl rfl]
        rw [hxy] at hyz ⊢
        exact hyz
    · unfold ScheduleEntry.Clears at hxy ⊢
      by_cases hfirst : x.state = .waiting ∧ x.id ∈ [id]
      · rw [if_pos hfirst] at hxy
        rwa [if_pos ⟨hfirst.1, List.mem_cons.2 (.inl (List.mem_singleton.1 hfirst.2))⟩]
      · rw [if_neg hfirst] at hxy
        rw [if_neg fun hw => hclosing ?_]
        · exact hxy
        · rw [hxy]
          exact ((h.2 x hx).waiting hw.1).2

/-! ### The claims on the Schedule Unit -/

/-- The WAITING entries of a generator. -/
def State.waitingOn (s : State) (g : GenNo) : List EntryId :=
  (s.schedule.entries.filter (fun e => e.generator == g && e.state == .waiting)).map (fun e => e.id)

theorem State.mem_waitingOn (h : entriesConsistent s.schedule.entries) {g : GenNo} {x : ScheduleEntry}
    (hx : x ∈ s.schedule.entries) : x.id ∈ s.waitingOn g ↔ x.generator = g ∧ x.state = .waiting := by
  unfold State.waitingOn
  rw [List.mem_map]
  constructor
  · rintro ⟨y, hy, hid⟩
    obtain ⟨hmem, hwaits⟩ := List.mem_filter.1 hy
    obtain rfl : y = x := List.inj_on_of_nodup_map h.1 hmem hx hid
    simpa using hwaits
  · exact fun hwaits => ⟨x, List.mem_filter.2 ⟨hx, by simpa using hwaits⟩, rfl⟩

theorem State.loseEntries_leads (h : entriesConsistent s.schedule.entries) (g : GenNo) :
    State.Leads (ScheduleEntry.Clears .referenceLost (s.waitingOn g)) s (s.loseEntries g) :=
  State.foldl_clearEntry_leads h _ _

theorem State.offerSchedule_losses (s : State) : s.offerSchedule.schedule.losses = s.schedule.losses := by
  unfold State.offerSchedule
  generalize s.schedule.entries.length = k
  induction k generalizing s with
  | zero => rfl
  | succ k ih =>
    unfold offerClosingFuel
    split
    · rfl
    · split
      · exact ih _
      · rfl

/-- The clearing of an entry hands over and takes no claim. -/
theorem State.clearEntry_claims (s : State) (id : EntryId) (reason : ClearReason) :
    (s.clearEntry id reason).schedule.removals = s.schedule.removals
      ∧ (s.clearEntry id reason).schedule.losses = s.schedule.losses := by
  unfold State.clearEntry
  split
  · exact ⟨rfl, rfl⟩
  · split
    · exact ⟨State.offerSchedule_removals _, State.offerSchedule_losses _⟩
    · exact ⟨rfl, rfl⟩

theorem State.loseEntries_claims (s : State) (g : GenNo) :
    (s.loseEntries g).schedule.removals = s.schedule.removals ∧ (s.loseEntries g).schedule.losses = s.schedule.losses := by
  refine State.foldl_kept (P := fun t => t.schedule.removals = s.schedule.removals ∧ t.schedule.losses = s.schedule.losses)
    _ _ (fun t id _ ht => ?_) ⟨rfl, rfl⟩
  obtain ⟨hremovals, hlosses⟩ := t.clearEntry_claims id .referenceLost
  exact ⟨hremovals.trans ht.1, hlosses.trans ht.2⟩

end Sys2Proof.Machine

open Sys2Proof Sys2Proof.Machine

/-- Settles O47: the claim clears the entries that wait on its generator, one after the other. -/
theorem scheduleLossClears : Obligations.ScheduleLossClears := by
  intro s g l hactive hclaim hconsistent
  rw [State.scheduleConsistent_iff] at hconsistent
  have hexec : exec (.scheduleReferenceLoss g) s = .next
      (({ s with schedule := { s.schedule with losses := s.schedule.losses.erase l } }).loseEntries g).examineCommand.finish := by
    refine congrArg Host.Outcome.next ?_
    rw [if_pos hactive, State.takeScheduleLoss, hclaim]
  generalize hs' : ({ s with schedule := { s.schedule with losses := s.schedule.losses.erase l } } : State) = s' at hexec
  have hentries : s'.schedule.entries = s.schedule.entries := by rw [← hs']
  have hleads := State.loseEntries_leads (hentries ▸ hconsistent) g
  obtain ⟨hremovals, hlosses⟩ := s'.loseEntries_claims g
  have htouches : State.Touches noStream s (s'.loseEntries g).examineCommand := by
    have hclaimed : State.Touches noStream s s' := by
      rw [← hs']
      constructor <;> intros <;> rfl
    exact (hclaimed.trans (s'.loseEntries_touches g)).trans (s'.loseEntries g).examineCommand_touches
  have hapart : State.Apart noStream s (s'.loseEntries g).examineCommand := by
    have K := apart_kept noStream s
    refine K.examineCommand (K.scheduleOps.loseEntries g ?_)
    rw [← hs']
    exact K.schedule s _ (.refl _ s) (.takesLoss l)
  obtain ⟨hschedule, hheld⟩ := (s'.loseEntries g).examineCommand_schedule_held
  have htable : (s'.loseEntries g).examineCommand.finish.schedule = (s'.loseEntries g).schedule := by
    rw [State.finish_schedule, hschedule]
  have hgrows : (s'.loseEntries g).heldEvents <+: (s'.loseEntries g).examineCommand.finish.heldEvents := by
    rw [State.finish_heldEvents]
    exact hheld
  refine ⟨_, hexec, ?_, ?_, ?_, ?_, ?_, ?_, fun x hx => ?_⟩
  · rw [htable, hlosses, ← hs']
  · rw [htable, hremovals, ← hs']
  · exact (State.finish_timebase _).trans hapart.timebase
  · rw [State.finish_ports]
    exact State.ports_ext fun m => hapart.beyond.port m id
  · exact (State.Touches.control htouches).trans (State.finish_control _)
  · exact hapart.beyond.finish (.refl none s)
  · have hx' : x ∈ s'.schedule.entries := hentries ▸ hx
    have hmem := State.mem_waitingOn (hentries ▸ hconsistent) (g := g) hx'
    have hstands (hno : ¬(x.state = .waiting ∧ x.id ∈ s'.waitingOn g)) {y : ScheduleEntry}
        (hy : x.Clears .referenceLost (s'.waitingOn g) y) : y = { x with behind := y.behind } := by
      rwa [ScheduleEntry.Clears, if_neg hno] at hy
    refine ⟨fun hwaits hg => ?_, fun hother => ?_, fun hdecided => ?_⟩
    · refine State.closesWith_of_same (hleads.closesWith hx' fun y hy => ?_) (congrArg ScheduleUnit.entries htable) hgrows
      rw [ScheduleEntry.Clears, if_pos ⟨hwaits, hmem.2 ⟨hg, hwaits⟩⟩] at hy
      rw [hy]
      exact ⟨rfl, rfl, rfl⟩
    · have hno : ¬(x.state = .waiting ∧ x.id ∈ s'.waitingOn g) := by
        rintro ⟨hwaits, hlost⟩
        rcases hother with hfires | ⟨-, hne⟩
        · rw [hfires] at hwaits
          cases hwaits
        · exact hne (hmem.1 hlost).1
      have hopen : x.closing = none := by
        rcases hother with hfires | ⟨hwaits, -⟩
        · exact (hconsistent.2 x hx).firing hfires
        · exact ((hconsistent.2 x hx).waiting hwaits).2
      rw [htable]
      rcases hleads.fates x hx' with ⟨y, hy, hxy⟩ | ⟨-, y, hxy, ev, hev, -⟩
      · refine ⟨y, hy, ?_⟩
        rw [hstands hno hxy]
        exact ⟨rfl, rfl, rfl, rfl, rfl, rfl, rfl, rfl⟩
      · rw [hstands hno hxy, hopen] at hev
        cases hev
    · have hno : ¬(x.state = .waiting ∧ x.id ∈ s'.waitingOn g) := by
        rintro ⟨hwaits, -⟩
        rcases hdecided with h | h <;> rw [h] at hwaits <;> cases hwaits
      rw [htable]
      rcases hleads.fates x hx' with ⟨y, hy, hxy⟩ | ⟨hgone, y, hxy, ev, hev, hplaced⟩
      · refine .inl ⟨y, hy, ?_⟩
        rw [hstands hno hxy]
        exact ⟨rfl, rfl, rfl⟩
      · rw [hstands hno hxy] at hev
        exact .inr ⟨hgone, ev, hev, hgrows.subset hplaced⟩

end

section
/-! The removal claims (R102 to R105). -/

namespace Sys2Proof.Machine

variable {s : State}

/-- An examination of an entry that neither has answered in full nor is empty leaves it as it stands. -/
theorem State.examineEntry_open {id : EntryId} {x : ScheduleEntry} (h : s.entry? id = some x)
    (hopen : ¬(x.state = .firing ∧ x.streams &&& ~~~x.answered = 0 ∨ x.state = .waiting ∧ x.streams = 0)) :
    s.examineEntry id = s := by
  unfold State.examineEntry
  rw [h]
  exact if_neg fun k => hopen (by simpa using k)

/-- An examination of an entry that has answered in full, or is empty, decides it (R102, R105). -/
theorem State.examineEntry_decides {id : EntryId} {x : ScheduleEntry} (h : s.entry? id = some x)
    (hclosed : x.state = .firing ∧ x.streams &&& ~~~x.answered = 0 ∨ x.state = .waiting ∧ x.streams = 0) :
    s.examineEntry id = (s.decideEntry id x.outcome.1 x.outcome.2).offerSchedule := by
  unfold State.examineEntry
  rw [h]
  exact if_pos (by simpa using hclosed)

/-- The table with the stream out of the entry's set (R104). -/
def State.shrunk (s : State) (id : EntryId) (n : StreamNo) (reason : ClearReason) : State :=
  s.modifyEntry id (fun e => { e with streams := e.streams &&& ~~~streamBit n, lastRemoval := some reason })

theorem State.shrunk_consistent (h : entriesConsistent s.schedule.entries) (id : EntryId) (n : StreamNo) (reason : ClearReason) :
    entriesConsistent (s.shrunk id n reason).schedule.entries :=
  ScheduleUnit.Moves.consistent (.removes id n reason) h

theorem State.shrunk_entry? (h : entriesConsistent s.schedule.entries) {x : ScheduleEntry} (hx : x ∈ s.schedule.entries)
    (n : StreamNo) (reason : ClearReason) : (s.shrunk x.id n reason).entry? x.id
      = some { x with streams := x.streams &&& ~~~streamBit n, lastRemoval := some reason } := by
  refine State.entry?_of_mem (State.shrunk_consistent h x.id n reason)
    (x := { x with streams := x.streams &&& ~~~streamBit n, lastRemoval := some reason }) ?_
  refine List.mem_map.2 ⟨x, hx, ?_⟩
  rw [if_pos (beq_self_eq_true _)]

/-- A claim on an entry that names the stream (R104). -/
theorem State.removeFromEntry_live (h : entriesConsistent s.schedule.entries) {x : ScheduleEntry} (hx : x ∈ s.schedule.entries)
    {n : StreamNo} (hlive : (x.state = .waiting ∨ x.state = .firing) ∧ x.streams.getLsbD n.val = true) (reason : ClearReason) :
    s.removeFromEntry x.id n reason = (s.shrunk x.id n reason).examineEntry x.id := by
  unfold State.removeFromEntry
  rw [State.entry?_of_mem h hx]
  exact if_pos (by simpa using hlive)

/-- A claim on no entry, on one that is decided or on one that does not name the stream (R104). -/
theorem State.removeFromEntry_ignored {id : EntryId} {n : StreamNo}
    (h : ∀ x ∈ s.schedule.entries, ¬(x.id = id ∧ (x.state = .waiting ∨ x.state = .firing) ∧ x.streams.getLsbD n.val = true))
    (reason : ClearReason) : s.removeFromEntry id n reason = s := by
  unfold State.removeFromEntry
  split
  · rfl
  · rename_i x hx
    exact if_neg fun k => h x (State.entry?_mem hx) ⟨State.entry?_id hx, by simpa using k⟩

theorem State.removeFromEntry_removals (s : State) (id : EntryId) (n : StreamNo) (reason : ClearReason) :
    (s.removeFromEntry id n reason).schedule.removals = s.schedule.removals := by
  unfold State.removeFromEntry
  split
  · rfl
  · split
    · exact State.examineEntry_removals _ id
    · rfl

/-- The table with one claim taken (R104). -/
def State.claimTaken (s : State) (c : RemovalClaim) : State :=
  { s with schedule := { s.schedule with removals := s.schedule.removals.erase c } }

theorem exec_removalClaim {n : StreamNo} {c : RemovalClaim} (h : s.isActive = true)
    (hc : s.schedule.removals.find? (fun c => c.stream == n) = some c) : exec (.removalClaim n) s
      = .next ((s.claimTaken c).removeFromEntry c.entry n c.reason).examineCommand.finish := by
  refine congrArg Host.Outcome.next ?_
  rw [hc]
  exact if_pos h

/-- The entry with the stream out of its set (R104). -/
def ScheduleEntry.without (x : ScheduleEntry) (n : StreamNo) (reason : ClearReason) : ScheduleEntry :=
  { x with streams := x.streams &&& ~~~streamBit n, lastRemoval := some reason }

/-- A claim that leaves its entry nothing to wait for has it closed (R102, R103, R105). -/
theorem State.shrunk_closesWith (h : entriesConsistent s.schedule.entries) {x : ScheduleEntry} (hx : x ∈ s.schedule.entries)
    (n : StreamNo) (reason : ClearReason)
    (hclosed : x.state = .firing ∧ (x.without n reason).streams &&& ~~~x.answered = 0
      ∨ x.state = .waiting ∧ (x.without n reason).streams = 0) :
    ((s.shrunk x.id n reason).examineEntry x.id).closesWith x.id (x.without n reason).outcome.1 (x.without n reason).outcome.2 := by
  have hentry : (s.shrunk x.id n reason).entry? x.id = some (x.without n reason) := State.shrunk_entry? h hx n reason
  rw [State.examineEntry_decides hentry hclosed]
  exact State.closesWith_decided (x := x.without n reason) (State.decided_leads (State.shrunk_consistent h x.id n reason) x.id
    (ScheduleEntry.outcome_state _) (x.without n reason).outcome_closes) (State.entry?_mem hentry)

/-- The event that closes an entry whose stream has been removed (R102, R103, R105). -/
theorem ScheduleEntry.without_outcome (x : ScheduleEntry) (n : StreamNo) (reason : ClearReason) :
    (x.without n reason).outcome = if x.answered = 0 then (.clearedUnreported, .entryCleared x.id x.kind reason)
      else if x.kind = .start then
        (.firedUnreported, .startDone x.id x.generator x.answered (x.firePosition.getD 0) x.late)
      else (.firedUnreported, .entryStopDone x.id x.generator x.answered x.condition.stopReason (x.firePosition.getD 0 - 1) x.late) := by
  unfold ScheduleEntry.outcome ScheduleEntry.without
  dsimp only
  refine if_congr beq_iff_eq rfl ?_
  cases x.kind <;> rfl

end Sys2Proof.Machine

open Sys2Proof Sys2Proof.Machine

/-- Settles O48: a claim shrinks its entry, which is decided when nothing of it is left to answer. -/
theorem removalClaimTaken : Obligations.RemovalClaimTaken := by
  intro s n hactive
  refine ⟨fun hnone => congrArg Host.Outcome.next (by rw [hnone]), fun c hc hconsistent hanswer => ?_⟩
  rw [State.scheduleConsistent_iff] at hconsistent
  intro taken live
  have hexec := exec_removalClaim hactive hc
  refine ⟨fun hignored => ⟨_, hexec, ?_⟩, ?_⟩
  · rw [State.removeFromEntry_ignored (s := s.claimTaken c) hignored, State.examineCommand_of_owesNoAnswer (by exact hanswer)]
    exact State.finish_grantsTo _
  · intro x hx hlive left ends shrunk fired reason
    obtain ⟨hid, hopen, hnamed⟩ := hlive
    have hshrinks := State.removeFromEntry_live (s := s.claimTaken c) hconsistent hx ⟨hopen, hnamed⟩ c.reason
    have hentry : ((s.claimTaken c).shrunk x.id n c.reason).entry? x.id = some (x.without n c.reason) :=
      State.shrunk_entry? (s := s.claimTaken c) hconsistent hx n c.reason
    have hclosed : (x.state = .firing ∧ left &&& ~~~x.answered = 0 ∨ x.state = .waiting ∧ left = 0) ↔ ends := by
      rcases hopen with h | h <;> simp [ends, h]
    have hfrom (t : State) (ht : State.Apart noStream s t) : State.Apart noStream s (t.removeFromEntry x.id n c.reason).examineCommand :=
      (apart_kept noStream s).examineCommand ((apart_kept noStream s).scheduleOps.removeFromEntry x.id n c.reason ht)
    have hapart := hfrom (s.claimTaken c) ((apart_kept noStream s).schedule s _ (.refl _ s) (.takes c))
    have htouches : State.Touches noStream s ((s.claimTaken c).removeFromEntry x.id n c.reason).examineCommand := by
      have hclaimed : State.Touches noStream s (s.claimTaken c) := by constructor <;> intros <;> rfl
      exact (hclaimed.trans (State.removeFromEntry_touches _ x.id n c.reason)).trans (State.examineCommand_touches _)
    rw [← hid] at hexec
    refine ⟨fun hstays => ⟨_, hexec, ?_⟩, fun hends => ⟨_, hexec, ?_, ?_, ?_, ?_, ?_, ?_⟩⟩
    · have hshrunk : (s.claimTaken c).shrunk x.id n c.reason = shrunk := by
        refine congrArg (fun l => ({ taken with schedule := { taken.schedule with entries := l } } : State))
          (List.map_congr_left fun y hy => ?_)
        by_cases hyx : y.id = x.id
        · obtain rfl : y = x := List.inj_on_of_nodup_map hconsistent.1 hy hx hyx
          rw [if_pos (beq_self_eq_true _), if_pos rfl]
        · rw [if_neg (by simpa using hyx), if_neg hyx]
      rw [hshrinks, State.examineEntry_open hentry (fun k => hstays (hclosed.1 k)), hshrunk,
        State.examineCommand_of_owesNoAnswer (by exact hanswer)]
      exact State.finish_grantsTo _
    · rw [State.finish_schedule, State.examineCommand_schedule, State.removeFromEntry_removals]
      rfl
    · have hcloses := State.shrunk_closesWith (s := s.claimTaken c) hconsistent hx n c.reason (hclosed.2 hends)
      rw [← hshrinks] at hcloses
      obtain ⟨hschedule, hheld⟩ := ((s.claimTaken c).removeFromEntry x.id n c.reason).examineCommand_schedule_held
      replace hcloses := State.closesWith_of_same (u := ((s.claimTaken c).removeFromEntry x.id n c.reason).examineCommand.finish)
        hcloses (by rw [State.finish_schedule, hschedule]) (by rw [State.finish_heldEvents]; exact hheld)
      have hunanswered : x.state = .waiting ∨ x.answered = 0 ↔ x.answered = 0 :=
        or_iff_right_of_imp fun hwaits => ((hconsistent.2 x hx).waiting hwaits).1
      rw [ScheduleEntry.without_outcome] at hcloses
      rw [if_congr hunanswered rfl rfl]
      by_cases hnone : x.answered = 0
      · rw [if_pos hnone] at hcloses ⊢
        exact hcloses
      · rw [if_neg hnone] at hcloses ⊢
        by_cases hkind : x.kind = .start
        · rw [if_pos hkind] at hcloses ⊢
          exact hcloses
        · rw [if_neg hkind] at hcloses ⊢
          exact hcloses
    · exact (State.finish_timebase _).trans hapart.timebase
    · rw [State.finish_ports]
      exact State.ports_ext fun m => hapart.beyond.port m id
    · exact (State.Touches.control htouches).trans (State.finish_control _)
    · exact hapart.beyond.finish (.refl none s)

end

section
/-! CANCEL, and the entries that a command waits for (R105, R106, R134, R138). -/

namespace Sys2Proof.Machine

variable {s : State}

/-! ### The entry wait set -/

/-- An entry with that id stands in the table. -/
def State.stands (s : State) (id : EntryId) : Bool := s.schedule.entries.any (fun x => x.id == id)

theorem State.stands_iff (s : State) (id : EntryId) : s.stands id = true ↔ ∃ x ∈ s.schedule.entries, x.id = id := by
  simp [State.stands]

/-- The command in progress waits for those of the entries `ids` that still stand in the table. -/
def State.Awaits (ids : List EntryId) (s : State) : Prop := s.command.entryWait = ids.filter s.stands

/-- A change of the entries that leaves each its id. -/
theorem State.Awaits.map {ids : List EntryId} {t : State} (h : s.Awaits ids) {f : ScheduleEntry → ScheduleEntry}
    (entryWait : t.command.entryWait = s.command.entryWait) (entries : t.schedule.entries = s.schedule.entries.map f)
    (hid : ∀ x, (f x).id = x.id) : t.Awaits ids := by
  have hstands : t.stands = s.stands := by
    funext id
    rw [State.stands, State.stands, entries, List.any_map]
    congr 1
    funext x
    exact congrArg (· == id) (hid x)
  rw [State.Awaits, entryWait, hstands]
  exact h

theorem State.placeClosing_awaits {ids : List EntryId} (h : s.Awaits ids) (e : ScheduleEntry) (ev : Event) :
    (s.placeClosing e ev).Awaits ids := by
  show s.command.entryWait.filter _ = _
  rw [h, List.filter_filter]
  refine List.filter_congr fun id _ => ?_
  rw [Bool.eq_iff_iff, Bool.and_eq_true, State.stands_iff, State.stands_iff, bne_iff_ne]
  constructor
  · rintro ⟨hne, x, hx, rfl⟩
    exact ⟨x, List.mem_filter.2 ⟨hx, bne_iff_ne.2 hne⟩, rfl⟩
  · rintro ⟨x, hx, rfl⟩
    obtain ⟨hx, hne⟩ := List.mem_filter.1 hx
    exact ⟨bne_iff_ne.1 hne, x, hx, rfl⟩

theorem State.offerSchedule_awaits {ids : List EntryId} (h : s.Awaits ids) : s.offerSchedule.Awaits ids := by
  unfold State.offerSchedule
  generalize s.schedule.entries.length = k
  induction k generalizing s with
  | zero => exact h
  | succ k ih =>
    unfold offerClosingFuel
    split
    · exact h
    · split
      · exact ih (State.placeClosing_awaits h _ _)
      · exact h

theorem State.decideEntry_awaits {ids : List EntryId} (h : s.Awaits ids) (id : EntryId) (st : EntryState) (ev : Event) :
    (s.decideEntry id st ev).Awaits ids := by
  refine h.map rfl rfl fun x => ?_
  dsimp only
  split <;> rfl

theorem State.modifyEntry_awaits {ids : List EntryId} (h : s.Awaits ids) (id : EntryId) {f : ScheduleEntry → ScheduleEntry}
    (hid : ∀ x, (f x).id = x.id) : (s.modifyEntry id f).Awaits ids := by
  refine h.map rfl rfl fun x => ?_
  split
  · exact hid x
  · rfl

theorem State.examineEntry_awaits {ids : List EntryId} (h : s.Awaits ids) (id : EntryId) : (s.examineEntry id).Awaits ids := by
  unfold State.examineEntry
  split
  · exact h
  · split
    · exact State.offerSchedule_awaits (State.decideEntry_awaits h _ _ _)
    · exact h

theorem State.removeFromEntry_awaits {ids : List EntryId} (h : s.Awaits ids) (id : EntryId) (n : StreamNo) (reason : ClearReason) :
    (s.removeFromEntry id n reason).Awaits ids := by
  unfold State.removeFromEntry
  split
  · exact h
  · split
    · exact State.examineEntry_awaits (State.modifyEntry_awaits h _ (f := fun e =>
        { e with streams := e.streams &&& ~~~streamBit n, lastRemoval := some reason }) fun _ => rfl) _
    · exact h

theorem State.clearEntry_awaits {ids : List EntryId} (h : s.Awaits ids) (id : EntryId) (reason : ClearReason) :
    (s.clearEntry id reason).Awaits ids := by
  unfold State.clearEntry
  split
  · exact h
  · split
    · exact State.offerSchedule_awaits (State.decideEntry_awaits h _ _ _)
    · exact h

/-- The Schedule Unit's operations leave the command in progress but for its entry wait set. -/
theorem command_keptBySchedule (c : CommandUnit) :
    State.KeptBySchedule (fun t => t.command = { c with entryWait := t.command.entryWait }) where
  places := fun t e ev h _ _ => by
    show ({ t.command with entryWait := t.command.entryWait.filter (fun id => id != e.id) } : CommandUnit) = _
    rw [h]
    rfl
  schedule := fun _ _ h _ => h

/-! ### The streams of a cancelled entry -/

theorem Stream.returned_eq (c : Stream) (e : ScheduleEntry) : c.returned e =
    if c.scheduleEntry = some e.id then
      if e.kind = .stop then { c with scheduleEntry := none }
      else if c.state = .armed then { c with state := .idle, scheduleEntry := none, drainAnswered := false }
      else c
    else c := by
  unfold Stream.returned
  by_cases hentry : c.scheduleEntry = some e.id
  · rw [if_neg (show ¬(c.scheduleEntry != some e.id) = true from by simp [hentry]), if_pos hentry]
    cases e.kind with
    | start => exact (if_congr beq_iff_eq rfl rfl).trans (if_neg (show ¬EntryKind.start = .stop by decide)).symm
    | stop => rfl
  · rw [if_neg hentry, if_pos (bne_iff_ne.2 hentry)]

theorem State.returnStreams_eq (s : State) (e : ScheduleEntry) : s.returnStreams e = { s with
    streams := Vector.ofFn (fun n => if e.streams.getLsbD n.val = true then (s.stream n).returned e else s.stream n) } := by
  unfold State.returnStreams
  rw [State.foldl_modifyStream (fun _ c => c.returned e) _ (streamsOf_nodup _)]
  simp only [mem_streamsOf]

/-- The command waits for the entry alone. -/
def State.awaitingEntry (s : State) (x : ScheduleEntry) (result : List Byte) : State :=
  (s.returnStreams x).awaitCompletion result 0 [x.id]

/-- What CANCEL does with its entry once its checks have passed (R138). -/
def State.cancelling (s : State) (x : ScheduleEntry) (result : List Byte) : State :=
  (s.awaitingEntry x result).clearEntry x.id .cancelled

section
variable (s : State) (x : ScheduleEntry) (result : List Byte)

theorem State.awaitingEntry_eq : s.awaitingEntry x result = { s with
    streams := Vector.ofFn (fun n => if x.streams.getLsbD n.val = true then (s.stream n).returned x else s.stream n)
    command := { s.command with
      phase := .completing
      inProgress := s.command.inProgress.map (fun p => { p with result := result })
      streamWait := 0
      entryWait := [x.id] } } := by
  rw [State.awaitingEntry, State.returnStreams_eq]
  rfl

theorem State.awaitingEntry_entries : (s.awaitingEntry x result).schedule = s.schedule := by
  rw [State.awaitingEntry_eq]

theorem State.cancelling_touches :
    State.Touches (fun n => x.streams.getLsbD n.val = true) s (s.cancelling x result).examineCommand := by
  have hreturned : State.Touches (fun n => x.streams.getLsbD n.val = true) s (s.returnStreams x) :=
    State.Touches.foldl _ _ (fun t n hn => (t.modifyStream_touches n _).mono (by
      rintro _ rfl
      exact (mem_streamsOf _ _).1 hn)) s
  exact ((hreturned.trans ((State.awaitCompletion_touches _ _ _ _).any _)).trans ((State.clearEntry_touches _ _ _).any _)).trans
    ((State.examineCommand_touches _).any _)

theorem State.cancelling_transfers : (s.cancelling x result).examineCommand.transfers = s.transfers := by
  have hcleared (t : State) (id : EntryId) (reason : ClearReason) : (t.clearEntry id reason).transfers = t.transfers := by
    unfold State.clearEntry
    split
    · rfl
    · split
      · exact State.offerSchedule_transfers _
      · rfl
  rw [State.examineCommand_transfers, State.cancelling, hcleared, State.awaitingEntry_eq]

theorem State.cancelling_events : s.EventsGrow (s.cancelling x result).examineCommand := by
  have K := eventsGrow_kept s
  refine K.examineCommand (K.scheduleOps.clearEntry _ _ ?_)
  rw [State.awaitingEntry_eq]
  exact .of_eq rfl

/-- The stream as CANCEL leaves it. -/
theorem State.cancelling_stream (n : StreamNo) : (s.cancelling x result).examineCommand.stream n
    = if x.streams.getLsbD n.val = true then (s.stream n).returned x else s.stream n := by
  have hsame := ((State.clearEntry_touches (s.awaitingEntry x result) x.id .cancelled).trans (State.examineCommand_touches _)).stream n id
  rw [show (s.cancelling x result).examineCommand.stream n = (s.awaitingEntry x result).stream n from hsame, State.awaitingEntry_eq]
  simp [State.stream]

theorem State.cancelling_ports : (s.cancelling x result).examineCommand.ports = s.ports := by
  have htouches := (State.clearEntry_touches (s.awaitingEntry x result) x.id .cancelled).trans (State.examineCommand_touches _)
  refine (State.ports_ext fun n => htouches.port n id).trans ?_
  rw [State.awaitingEntry_eq]

/-- The command that waits for its entry, or no longer does (R105, R138). -/
theorem State.cancelling_command {q : CommandInProgress} (hq : s.command.inProgress = some q) (hx : x ∈ s.schedule.entries) :
    (s.cancelling x result).command = { s.command with
      phase := .completing
      inProgress := some { q with result := result }
      streamWait := 0
      entryWait := if (s.cancelling x result).stands x.id = true then [x.id] else [] } := by
  have hstart : (s.awaitingEntry x result).command = { s.command with
      phase := .completing
      inProgress := some { q with result := result }
      streamWait := 0
      entryWait := [x.id] } := by
    rw [State.awaitingEntry_eq, hq]
    rfl
  have hcommand := (command_keptBySchedule (s.awaitingEntry x result).command).clearEntry (s := s.awaitingEntry x result)
    x.id .cancelled rfl
  have hawaits : (s.awaitingEntry x result).Awaits [x.id] := by
    have hstands : (s.awaitingEntry x result).stands x.id = true :=
      (State.stands_iff _ _).2 ⟨x, by rw [State.awaitingEntry_entries]; exact hx, rfl⟩
    rw [State.Awaits, hstart, List.filter_singleton, hstands]
    rfl
  have hwaits : (s.cancelling x result).command.entryWait = _ := State.clearEntry_awaits hawaits x.id .cancelled
  rw [List.filter_singleton, Bool.cond_eq_ite] at hwaits
  refine Eq.trans hcommand ?_
  rw [hstart]
  exact congrArg (fun l => ({ s.command with
    phase := .completing
    inProgress := some { q with result := result }
    streamWait := 0
    entryWait := l } : CommandUnit)) hwaits

end

end Sys2Proof.Machine

open Sys2Proof Sys2Proof.Machine

/-- Settles O28: the entry is cleared ahead of the answer, which waits until its event is placed. -/
theorem cancelClearsEntry : Obligations.CancelClearsEntry := by
  intro s e seq index target h i result returned
  refine ⟨fun hnone => ⟨_, rfl, ?_⟩, fun x hx hwaits hconsistent => ?_⟩
  · refine State.takeCommand_answered s e _ seq index _ _ _ h ?_
    unfold State.cancel
    rw [show (s.taken e (.cancel e seq target) seq index).entry? target = s.entry? target from rfl]
    cases hx : s.entry? target with
    | none => rfl
    | some x =>
      rw [hx, Option.all_some] at hnone
      exact if_pos hnone
  · obtain rfl := State.entry?_id hx
    have hmem := State.entry?_mem hx
    rw [State.scheduleConsistent_iff] at hconsistent
    generalize hw : (s.taken e i seq index).cancelling x (result x) = w
    have hexec : exec i s = .next w.examineCommand.finish := by
      have hcancel : (s.taken e i seq index).cancel x.id = w.examineCommand := by
        unfold State.cancel
        rw [show (s.taken e i seq index).entry? x.id = s.entry? x.id from rfl, hx, ← hw]
        dsimp only
        rw [if_neg (by rw [hwaits]; decide)]
        rfl
      show Host.Outcome.next (s.takeCommand e i seq (fun s => s.cancel x.id)) = _
      rw [State.takeCommand_eq s e i seq index _ h, hcancel]
    have hcommand := State.cancelling_command (s.taken e i seq index) x (result x) (q := ⟨i, index, seq, [], .nobody⟩) rfl hmem
    have hleads : State.Leads (ScheduleEntry.Clears .cancelled [x.id]) ((s.taken e i seq index).awaitingEntry x (result x)) w := by
      rw [← hw]
      refine State.clearEntry_leads ?_ x.id .cancelled
      rw [State.awaitingEntry_entries]
      exact hconsistent
    have hcloses : w.closesWith x.id .clearedUnreported (.entryCleared x.id x.kind .cancelled) := by
      refine hleads.closesWith (by rw [State.awaitingEntry_entries]; exact hmem) fun y hy => ?_
      rw [ScheduleEntry.Clears, if_pos ⟨hwaits, List.mem_singleton_self _⟩] at hy
      rw [hy]
      exact ⟨rfl, rfl, rfl⟩
    obtain ⟨hschedule, hheld⟩ := w.examineCommand_schedule_held
    have htouches := State.cancelling_touches (s.taken e i seq index) x (result x)
    have hstream := State.cancelling_stream (s.taken e i seq index) x (result x)
    have hports := State.cancelling_ports (s.taken e i seq index) x (result x)
    have htransfers := State.cancelling_transfers (s.taken e i seq index) x (result x)
    have hevents := State.cancelling_events (s.taken e i seq index) x (result x)
    rw [hw] at hcommand htouches hstream hports htransfers hevents
    refine ⟨_, hexec, ?_, fun n => ?_, ?_, ?_, ?_, ?_⟩
    · rw [State.finish_schedule, hschedule]
      cases hstands : w.stands x.id with
      | true =>
        rw [if_pos hstands] at hcommand
        have hstays : w.examineCommand = w := State.examineCommand_waits (.inr (by rw [hcommand]; exact List.cons_ne_nil _ _))
        obtain ⟨y, hy, hyid⟩ := (w.stands_iff _).1 hstands
        obtain ⟨hstate, hclosing⟩ := hcloses.1 y hy hyid
        obtain ⟨-, hprogress, -, -, hentries⟩ := w.finish_command
        rw [hstays, hprogress, hentries, hcommand]
        exact .inl ⟨State.finish_completing (by rw [hcommand]), rfl, rfl, y, hy, hyid, hstate, hclosing⟩
      | false =>
        rw [if_neg (by rw [hstands]; decide)] at hcommand
        have hgone : ∀ y ∈ w.schedule.entries, y.id ≠ x.id := fun y hy hyid => by
          have := (w.stands_iff x.id).2 ⟨y, hy, hyid⟩
          rw [hstands] at this
          cases this
        obtain ⟨hphase, hanswer⟩ := State.examineCommand_answers (s := w) (q := ⟨i, index, seq, result x, .nobody⟩)
          (by rw [hcommand]) (by rw [hcommand]) (by rw [hcommand]) (by rw [hcommand])
        refine .inr ⟨hphase, hgone, ?_, hanswer⟩
        rw [State.finish_heldEvents]
        exact hheld.subset (hcloses.2 hgone)
    · have hreturned : returned x n = w.examineCommand.stream n := by
        rw [hstream]
        by_cases hnamed : x.streams.getLsbD n.val = true
        · rw [if_pos hnamed, show (s.taken e i seq index).stream n = s.stream n from rfl, Stream.returned_eq]
          exact if_congr (and_iff_right hnamed) rfl rfl
        · rw [if_neg hnamed]
          exact if_neg fun k => hnamed k.1
      rw [hreturned]
      exact w.examineCommand.finish_grantsTo.2.2.1 n
    · exact (State.Touches.control htouches).trans (State.finish_control _)
    · exact (State.finish_timebase _).trans htouches.timebase
    · exact (State.finish_ports _).trans hports
    · exact (htouches.beyond hevents htransfers).finish (.taken s e i seq index)

end

section
/-! The entries that a STOP NOW empties (R104, R105, R133, R134). -/

namespace Sys2Proof.Machine

variable {s t u : State}

/-! ### A removal on every entry of the table -/

/-- Every entry of the later table is one of the earlier, changed as the operation says. -/
theorem State.Leads.back {R : ScheduleEntry → ScheduleEntry → Prop} (hcalls : SameCalls R) (h : State.Leads R s t)
    {y : ScheduleEntry} (hy : y ∈ t.schedule.entries) : ∃ x ∈ s.schedule.entries, R x y := by
  obtain ⟨x, hx, hxy⟩ := h.entries y hy
  rcases h.fates x hx with ⟨z, hz, hxz⟩ | ⟨hgone, -⟩
  · obtain rfl : z = y := List.inj_on_of_nodup_map h.consistent.1 hz hy ((hcalls x z hxz).1.trans hxy.1.symm)
    exact ⟨x, hx, hxz⟩
  · exact absurd hxy.1 (hgone y hy)

/-- An operation that does nothing to the rest of the table. -/
theorem State.Leads.imp {R Q : ScheduleEntry → ScheduleEntry → Prop} (h : State.Leads R s t)
    (himp : ∀ x ∈ s.schedule.entries, ∀ y, R x y → Q x y) : State.Leads Q s t where
  consistent := h.consistent
  entries := h.entries
  held := h.held
  fates := fun x hx => (h.fates x hx).imp (fun ⟨y, hy, hxy⟩ => ⟨y, hy, himp x hx y hxy⟩)
    fun ⟨hgone, y, hxy, hplaced⟩ => ⟨hgone, y, himp x hx y hxy, hplaced⟩

/-- The removal of the stream concerns that entry. -/
def ScheduleEntry.Concerned (x : ScheduleEntry) (id : EntryId) (n : StreamNo) : Prop :=
  x.id = id ∧ (x.state = .waiting ∨ x.state = .firing) ∧ x.streams.getLsbD n.val = true

/-- Nothing of the entry is left to answer. -/
def ScheduleEntry.Exhausted (x : ScheduleEntry) : Prop :=
  x.state = .firing ∧ x.streams &&& ~~~x.answered = 0 ∨ x.state = .waiting ∧ x.streams = 0

/-- Entry `y` is `x`, changed to `x'` where it is concerned, after the examination behind the change. -/
def ScheduleEntry.Examines (concerned : Prop) (x x' y : ScheduleEntry) : Prop :=
  ¬concerned ∧ y = { x with behind := y.behind }
    ∨ concerned ∧ ¬x'.Exhausted ∧ y = { x' with behind := y.behind }
    ∨ concerned ∧ x'.Exhausted ∧ y = { x' with state := x'.outcome.1, closing := some x'.outcome.2, behind := y.behind }

theorem sameCalls_examines {c : ScheduleEntry → Prop} {f : ScheduleEntry → ScheduleEntry} (hf : ∀ x : ScheduleEntry, x.SameCall (f x)) :
    SameCalls (fun x y => x.Examines (c x) (f x) y) := fun x y h => by
  rcases h with ⟨-, h⟩ | ⟨-, -, h⟩ | ⟨-, -, h⟩
  · rw [h]
    exact ⟨rfl, rfl, rfl, rfl, rfl, rfl⟩
  · rw [h]
    exact (hf x).trans ⟨rfl, rfl, rfl, rfl, rfl, rfl⟩
  · rw [h]
    exact (hf x).trans ⟨rfl, rfl, rfl, rfl, rfl, rfl⟩

/-- A change of one undecided entry, and the examination behind it. -/
theorem State.examined_leads {f : ScheduleEntry → ScheduleEntry} (hf : ∀ x : ScheduleEntry, x.SameCall (f x))
    (h : entriesConsistent s.schedule.entries) {e : ScheduleEntry} (he : e ∈ s.schedule.entries) (hopen : (f e).closing = none)
    (hchanged : entriesConsistent (s.modifyEntry e.id f).schedule.entries) :
    State.Leads (fun x y => x.Examines (x.id = e.id) (f x) y) s ((s.modifyEntry e.id f).examineEntry e.id) := by
  have heid : (f e).id = e.id := (hf e).1
  have heq {x : ScheduleEntry} (hx : x ∈ s.schedule.entries) (hid : x.id = e.id) : x = e := List.inj_on_of_nodup_map h.1 hx he hid
  have hentry : (s.modifyEntry e.id f).entry? e.id = some (f e) := by
    rw [← heid]
    refine State.entry?_of_mem (heid ▸ hchanged) (List.mem_map.2 ⟨e, he, if_pos ?_⟩)
    exact beq_iff_eq.2 heid.symm
  have hchanges : State.Leads (fun x y => y = if x.id = e.id then f x else x) s (s.modifyEntry e.id f) := by
    refine .map (f := fun x => if x.id = e.id then f x else x) hchanged (List.map_congr_left fun x _ => if_congr beq_iff_eq rfl rfl)
      rfl (fun x => ?_) fun _ _ => rfl
    split
    · exact hf x
    · exact .refl x
  have hcalls : SameCalls (fun x y => y = if x.id = e.id then f x else x) := fun x y hxy => by
    rw [hxy]
    split
    · exact hf x
    · exact .refl x
  by_cases hexhausted : (f e).Exhausted
  · rw [State.examineEntry_decides hentry hexhausted]
    refine hchanges.trans hcalls (State.decided_leads hchanged e.id (ScheduleEntry.outcome_state _) (heid ▸ (f e).outcome_closes))
      (fun x hx y z hxy hyz => ?_) (fun x hx y hxy hclosing => ?_)
    · unfold ScheduleEntry.Decides at hyz
      by_cases hid : x.id = e.id
      · obtain rfl := heq hx hid
        rw [if_pos rfl] at hxy
        rw [hxy, if_pos heid] at hyz
        exact .inr (.inr ⟨rfl, hexhausted, hyz⟩)
      · rw [if_neg hid] at hxy
        rw [hxy, if_neg hid] at hyz
        exact .inl ⟨hid, hyz⟩
    · by_cases hid : x.id = e.id
      · obtain rfl := heq hx hid
        rw [if_pos rfl] at hxy
        rw [hxy] at hclosing
        exact absurd hopen hclosing
      · rw [if_neg hid] at hxy
        exact .inl ⟨hid, by rw [hxy]⟩
  · rw [State.examineEntry_open hentry hexhausted]
    refine hchanges.imp fun x hx y hxy => ?_
    by_cases hid : x.id = e.id
    · obtain rfl := heq hx hid
      rw [if_pos rfl] at hxy
      exact .inr (.inl ⟨rfl, hexhausted, by rw [hxy]⟩)
    · rw [if_neg hid] at hxy
      exact .inl ⟨hid, by rw [hxy]⟩

/-- Entry `y` is `x` after the removal of the stream from the entry with that id. -/
def ScheduleEntry.Removes (id : EntryId) (n : StreamNo) (reason : ClearReason) (x y : ScheduleEntry) : Prop :=
  x.Examines (x.Concerned id n) (x.without n reason) y

theorem sameCalls_removes (id : EntryId) (n : StreamNo) (reason : ClearReason) :
    SameCalls (ScheduleEntry.Removes id n reason) :=
  sameCalls_examines (c := fun x => x.Concerned id n) (f := fun x => x.without n reason) fun _ => ⟨rfl, rfl, rfl, rfl, rfl, rfl⟩

theorem State.removeFromEntry_leads (h : entriesConsistent s.schedule.entries) (id : EntryId) (n : StreamNo) (reason : ClearReason) :
    State.Leads (ScheduleEntry.Removes id n reason) s (s.removeFromEntry id n reason) := by
  by_cases hnone : ∀ x ∈ s.schedule.entries, ¬x.Concerned id n
  · rw [State.removeFromEntry_ignored hnone]
    exact State.leads_of_same h fun x hx => .inl ⟨hnone x hx, rfl⟩
  · push Not at hnone
    obtain ⟨e, he, rfl, hstate, hnamed⟩ := hnone
    rw [State.removeFromEntry_live h he ⟨hstate, hnamed⟩]
    have hopen : e.closing = none := hstate.elim (fun hwaits => ((h.2 e he).waiting hwaits).2) (h.2 e he).firing
    refine (State.examined_leads (f := fun x => x.without n reason) (fun _ => ⟨rfl, rfl, rfl, rfl, rfl, rfl⟩) h he hopen
      (State.shrunk_consistent h e.id n reason)).imp fun x hx y hxy => ?_
    have hconcerned : x.Concerned e.id n ↔ x.id = e.id := by
      refine ⟨And.left, fun hid => ⟨hid, ?_⟩⟩
      obtain rfl : x = e := List.inj_on_of_nodup_map h.1 hx he hid
      exact ⟨hstate, hnamed⟩
    rw [ScheduleEntry.Removes, propext hconcerned]
    exact hxy

/-! ### The entries that a STOP NOW may empty -/

/-- An entry that a STOP NOW may leave cleared: WAITING, or FIRING with no answer, and some stream in its set. -/
def ScheduleEntry.Live (x : ScheduleEntry) : Prop :=
  (x.state = .waiting ∨ x.state = .firing ∧ x.answered = 0) ∧ x.streams ≠ 0

/-- The set of the entry after the removal. -/
def ScheduleEntry.leftBy (x : ScheduleEntry) (id : EntryId) (n : StreamNo) : StreamSet :=
  if x.id = id then x.streams &&& ~~~streamBit n else x.streams

theorem getLsbD_streamBit (n m : StreamNo) : (streamBit n).getLsbD m.val = decide (m = n) := by
  revert n m
  decide

theorem getLsbD_without (set : StreamSet) (n m : StreamNo) :
    (set &&& ~~~streamBit n).getLsbD m.val = true ↔ set.getLsbD m.val = true ∧ m ≠ n := by
  rw [BitVec.getLsbD_and, BitVec.getLsbD_not, getLsbD_streamBit]
  simp [show m.val < 8 from m.isLt]

theorem streams_ext {a b : StreamSet} (h : ∀ m : StreamNo, a.getLsbD m.val = b.getLsbD m.val) : a = b :=
  BitVec.eq_of_getLsbD_eq fun i hi => h ⟨i, hi⟩

theorem streams_eq_zero_iff (set : StreamSet) : set = 0 ↔ ∀ m : StreamNo, ¬set.getLsbD m.val = true := by
  constructor
  · rintro rfl m
    simp
  · exact fun h => streams_ext fun m => by simpa using h m

theorem streams_without_of_not_mem {set : StreamSet} {n : StreamNo} (h : set.getLsbD n.val = false) :
    set &&& ~~~streamBit n = set := by
  refine streams_ext fun m => ?_
  rw [Bool.eq_iff_iff, getLsbD_without]
  exact and_iff_left_of_imp fun hm hmn => by rw [hmn, h] at hm; cases hm

theorem mem_of_streams_without {set : StreamSet} {n : StreamNo} (hne : set ≠ 0) (h : set &&& ~~~streamBit n = 0) :
    set.getLsbD n.val = true := by
  by_contra hn
  rw [streams_without_of_not_mem (by simpa using hn)] at h
  exact hne h

/-- A removal leaves an entry live with the rest of its set, or has it decided with none. -/
theorem ScheduleEntry.Removes.live {id : EntryId} {n : StreamNo} {reason : ClearReason} {x y : ScheduleEntry}
    (h : x.Removes id n reason y) (hx : x.Live) :
    (x.leftBy id n ≠ 0 → y.Live ∧ y.streams = x.leftBy id n ∧ y.closing = x.closing) ∧ (x.leftBy id n = 0 → ¬y.Live) := by
  obtain ⟨hopen, hset⟩ := hx
  unfold ScheduleEntry.leftBy
  rcases h with ⟨hno, hy⟩ | ⟨⟨hid, -, hnamed⟩, hleft, hy⟩ | ⟨⟨hid, -, hnamed⟩, hexhausted, hy⟩
  · have hsame : (if x.id = id then x.streams &&& ~~~streamBit n else x.streams) = x.streams := by
      split
      · rename_i hid
        refine streams_without_of_not_mem (by_contra fun hn => hno ⟨hid, hopen.imp_right And.left, by simpa using hn⟩)
      · rfl
    rw [hsame, hy]
    exact ⟨fun _ => ⟨⟨hopen, hset⟩, rfl, rfl⟩, fun k => absurd k hset⟩
  · rw [if_pos hid, hy]
    refine ⟨fun k => ⟨⟨hopen, k⟩, rfl, rfl⟩, fun k hlive => hlive.2 k⟩
  · have hempty : x.streams &&& ~~~streamBit n = 0 := by
      rcases hexhausted with ⟨hfires, hleft⟩ | ⟨-, hleft⟩
      · have hanswered : x.answered = 0 := by
          rcases hopen with hwaits | ⟨-, hnone⟩
          · rw [show x.state = .firing from hfires] at hwaits
            cases hwaits
          · exact hnone
        rw [show (x.without n reason).answered = 0#8 from hanswered, BitVec.not_zero, BitVec.and_allOnes] at hleft
        exact hleft
      · exact hleft
    rw [if_pos hid, hy]
    exact ⟨fun k => absurd hempty k, fun _ hlive => hlive.2 hempty⟩

theorem ScheduleEntry.Removes.not_live {id : EntryId} {n : StreamNo} {reason : ClearReason} {x y : ScheduleEntry}
    (h : x.Removes id n reason y) (hx : ¬x.Live) : ¬y.Live := by
  rintro ⟨hopen, hset⟩
  rcases h with ⟨-, hy⟩ | ⟨⟨-, -, hnamed⟩, -, hy⟩ | ⟨-, -, hy⟩
  · rw [hy] at hopen hset
    exact hx ⟨hopen, hset⟩
  · rw [hy] at hopen
    refine hx ⟨hopen, fun hnone => ?_⟩
    rw [hnone] at hnamed
    simp at hnamed
  · have hstate := (x.without n reason).outcome_state
    rw [hy] at hopen
    rcases hopen with h | ⟨h, -⟩ <;> rcases hstate with k | k <;> rw [k] at h <;> cases h

/-- What the removal of the streams of `l`, each from the entry that names it, leaves of the entry's set. -/
def State.leftOf (s : State) (x : ScheduleEntry) (l : List StreamNo) : StreamSet :=
  l.foldl (fun set n => if (s.stream n).scheduleEntry = some x.id then set &&& ~~~streamBit n else set) x.streams

theorem State.leftOf_concat (s : State) (x : ScheduleEntry) (l : List StreamNo) (n : StreamNo) : s.leftOf x (l ++ [n])
    = if (s.stream n).scheduleEntry = some x.id then s.leftOf x l &&& ~~~streamBit n else s.leftOf x l := by
  rw [State.leftOf, List.foldl_append]
  rfl

theorem State.mem_leftOf (s : State) (x : ScheduleEntry) (l : List StreamNo) (m : StreamNo) : (s.leftOf x l).getLsbD m.val = true
    ↔ x.streams.getLsbD m.val = true ∧ ¬(m ∈ l ∧ (s.stream m).scheduleEntry = some x.id) := by
  induction l using List.reverseRecOn with
  | nil => simp [State.leftOf]
  | append_singleton l n ih =>
    rw [State.leftOf_concat]
    split
    · rename_i hn
      rw [getLsbD_without, ih, List.mem_append, List.mem_singleton]
      by_cases hm : m = n
      · subst hm
        simp [hn]
      · simp [hm]
    · rename_i hn
      rw [ih, List.mem_append, List.mem_singleton]
      by_cases hm : m = n
      · subst hm
        simp [hn]
      · simp [hm]

/-- What is left is empty when every stream of the set is one of `l` and named by the entry. -/
theorem State.leftOf_eq_zero_iff (s : State) (x : ScheduleEntry) (l : List StreamNo) : s.leftOf x l = 0
    ↔ ∀ m : StreamNo, x.streams.getLsbD m.val = true → m ∈ l ∧ (s.stream m).scheduleEntry = some x.id := by
  rw [streams_eq_zero_iff]
  refine forall_congr' fun m => ?_
  rw [State.mem_leftOf, not_and, not_not]

/-! ### The removals of a STOP NOW -/

/-- The entry is one that STOP NOW would leave cleared by taking that stream out of it (R104, R134). -/
def State.empties (s : State) (id : EntryId) (n : StreamNo) : Bool :=
  s.schedule.entries.any (fun e => e.id == id && (e.state == .waiting || e.state == .firing)
    && e.answered == 0 && (e.streams &&& ~~~streamBit n) == 0 && e.streams.getLsbD n.val)

theorem State.empties_iff (h : entriesConsistent s.schedule.entries) (id : EntryId) (n : StreamNo) : s.empties id n = true
    ↔ ∃ y ∈ s.schedule.entries, y.id = id ∧ y.Live ∧ y.streams &&& ~~~streamBit n = 0 := by
  simp only [State.empties, List.any_eq_true, Bool.and_eq_true, Bool.or_eq_true, beq_iff_eq]
  constructor
  · rintro ⟨y, hy, ⟨⟨⟨hid, hopen⟩, hnone⟩, hleft⟩, hnamed⟩
    refine ⟨y, hy, hid, ⟨hopen.imp_right fun k => ⟨k, hnone⟩, fun hempty => ?_⟩, hleft⟩
    rw [hempty] at hnamed
    simp at hnamed
  · rintro ⟨y, hy, hid, ⟨hopen, hset⟩, hleft⟩
    have hnone : y.answered = 0 := hopen.elim (fun hwaits => ((h.2 y hy).waiting hwaits).1) And.right
    exact ⟨y, hy, ⟨⟨⟨hid, hopen.imp_right And.left⟩, hnone⟩, hleft⟩, mem_of_streams_without hset hleft⟩

/-- The stream out of its entry, and the command waiting for an entry that this will empty. -/
def State.unnamed (s : State) (n : StreamNo) (id : EntryId) : State :=
  let t := s.modifyStream n (fun c => { c with scheduleEntry := none })
  { t with command := { t.command with
      entryWait := if s.empties id n = true then s.command.entryWait ++ [id] else s.command.entryWait } }

theorem State.stopRemoval_named {n : StreamNo} {id : EntryId} (h : (s.stream n).scheduleEntry = some id) :
    s.stopRemoval n = (s.unnamed n id).removeFromEntry id n .streamsLeft := by
  unfold State.stopRemoval State.unnamed State.empties
  rw [h]
  dsimp only
  split <;> rfl

theorem State.stopRemoval_unnamed {n : StreamNo} (h : (s.stream n).scheduleEntry = none) : s.stopRemoval n = s := by
  unfold State.stopRemoval
  rw [h]

/-- `t` is `s` with the streams of `l` taken out of their entries. -/
structure State.Unnames (s : State) (l : List StreamNo) (t : State) : Prop where
  stream : ∀ n, t.stream n = if n ∈ l then { s.stream n with scheduleEntry := none } else s.stream n
  command : t.command = { s.command with entryWait := t.command.entryWait }
  consistent : entriesConsistent t.schedule.entries
  entries : EntriesFrom s.schedule.entries t.schedule.entries
  waits : ∃ ids, t.Awaits ids ∧ ∀ id, id ∈ ids ↔ ∃ x ∈ s.schedule.entries, x.Live ∧ s.leftOf x l = 0 ∧ x.id = id
  stands : ∀ x ∈ s.schedule.entries, x.Live → s.leftOf x l ≠ 0 →
    ∃ y ∈ t.schedule.entries, y.id = x.id ∧ y.Live ∧ y.streams = s.leftOf x l ∧ y.closing = none
  ends : ∀ x ∈ s.schedule.entries, (x.Live → s.leftOf x l = 0) → ∀ y ∈ t.schedule.entries, y.id = x.id → ¬y.Live

/-- Entry `x` of the table as the removals of `l` begin: it is live in the later table with what is left of its set, or is not
live there. -/
theorem State.Unnames.entry {l : List StreamNo} (h : s.Unnames l t) {x y : ScheduleEntry} (hx : x ∈ s.schedule.entries)
    (hy : y ∈ t.schedule.entries) (hid : y.id = x.id) (hlive : y.Live) : x.Live ∧ s.leftOf x l ≠ 0 ∧ y.streams = s.leftOf x l := by
  by_cases hends : x.Live → s.leftOf x l = 0
  · exact absurd hlive (h.ends x hx hends y hy hid)
  · push Not at hends
    obtain ⟨hxlive, hne⟩ := hends
    obtain ⟨z, hz, hzid, -, hset, -⟩ := h.stands x hx hxlive hne
    obtain rfl : y = z := List.inj_on_of_nodup_map h.consistent.1 hy hz (hid.trans hzid.symm)
    exact ⟨hxlive, hne, hset⟩

/-- No stream is taken out yet. -/
theorem State.Unnames.refl (h : entriesConsistent s.schedule.entries) (hnone : s.command.entryWait = []) : s.Unnames [] s where
  stream := fun n => by simp
  command := rfl
  consistent := h
  entries := .refl _
  waits := by
    refine ⟨[], hnone, fun id => ?_⟩
    simp only [List.not_mem_nil, false_iff]
    rintro ⟨x, -, hlive, hleft, -⟩
    exact hlive.2 hleft
  stands := fun x hx hlive _ =>
    ⟨x, hx, rfl, hlive, rfl, hlive.1.elim (fun k => ((h.2 x hx).waiting k).2) fun k => (h.2 x hx).firing k.1⟩
  ends := fun x hx hends y hy hid hlive => by
    obtain rfl : y = x := List.inj_on_of_nodup_map h.1 hy hx hid
    exact hlive.2 (hends hlive)

/-- One more stream is taken out of its entry. -/
theorem State.Unnames.stopRemoval {l : List StreamNo} (h : s.Unnames l t) {n : StreamNo}
    (hn : n ∉ l) : s.Unnames (l ++ [n]) (t.stopRemoval n) := by
  have hsame : t.stream n = s.stream n := by rw [h.stream, if_neg hn]
  have hmem (m : StreamNo) : m ∈ l ++ [n] ↔ m ∈ l ∨ m = n := by rw [List.mem_append, List.mem_singleton]
  cases hentry : (s.stream n).scheduleEntry with
  | none =>
    have hleft (x : ScheduleEntry) : s.leftOf x (l ++ [n]) = s.leftOf x l := by
      rw [State.leftOf_concat, hentry, if_neg nofun]
    rw [State.stopRemoval_unnamed (by rw [hsame]; exact hentry)]
    have hstreams (m : StreamNo) : t.stream m = if m ∈ l ++ [n] then { s.stream m with scheduleEntry := none } else s.stream m := by
      rw [h.stream]
      by_cases hm : m = n
      · subst hm
        rw [if_neg hn, if_pos ((hmem m).2 (.inr rfl)), ← hentry]
      · exact if_congr ((hmem m).trans (or_iff_left hm)).symm rfl rfl
    refine { h with stream := hstreams, waits := ?_, stands := ?_, ends := ?_ } <;> simp only [hleft]
    · exact h.waits
    · exact h.stands
    · exact h.ends
  | some id =>
    rw [State.stopRemoval_named (by rw [hsame]; exact hentry)]
    have hleads := State.removeFromEntry_leads (s := t.unnamed n id) h.consistent id n .streamsLeft
    have htouches := (t.unnamed n id).removeFromEntry_touches id n .streamsLeft
    have hcommand := (command_keptBySchedule (t.unnamed n id).command).removeFromEntry (s := t.unnamed n id) id n .streamsLeft rfl
    have hleft (x : ScheduleEntry) : s.leftOf x (l ++ [n])
        = if x.id = id then s.leftOf x l &&& ~~~streamBit n else s.leftOf x l := by
      rw [State.leftOf_concat, hentry]
      exact if_congr (Option.some_inj.trans eq_comm) rfl rfl
    have hempties : t.empties id n = true ↔ ∃ x ∈ s.schedule.entries, x.Live ∧ s.leftOf x l ≠ 0 ∧ s.leftOf x (l ++ [n]) = 0
        ∧ x.id = id := by
      rw [State.empties_iff h.consistent]
      constructor
      · rintro ⟨y, hy, rfl, hlive, hnone⟩
        obtain ⟨x, hx, hxy⟩ := h.entries y hy
        obtain ⟨hxlive, hne, hset⟩ := h.entry hx hy hxy.1 hlive
        exact ⟨x, hx, hxlive, hne, by rw [hleft, if_pos hxy.1.symm, ← hset, hnone], hxy.1.symm⟩
      · rintro ⟨x, hx, hlive, hne, hnone, rfl⟩
        obtain ⟨y, hy, hid, hylive, hset, -⟩ := h.stands x hx hlive hne
        rw [hleft, if_pos rfl] at hnone
        exact ⟨y, hy, hid, hylive, by rw [hset, hnone]⟩
    have hstays {x : ScheduleEntry} (hnone : s.leftOf x l = 0) : s.leftOf x (l ++ [n]) = 0 := by
      rw [hleft, hnone]
      split
      · exact BitVec.zero_and
      · rfl
    have hwaits : ∃ ids, ((t.unnamed n id).removeFromEntry id n .streamsLeft).Awaits ids
        ∧ ∀ id', id' ∈ ids ↔ ∃ x ∈ s.schedule.entries, x.Live ∧ s.leftOf x (l ++ [n]) = 0 ∧ x.id = id' := by
      obtain ⟨ids, hawaits, hids⟩ := h.waits
      refine ⟨if t.empties id n = true then ids ++ [id] else ids, State.removeFromEntry_awaits ?_ _ _ _, fun id' => ?_⟩
      · show (if t.empties id n = true then t.command.entryWait ++ [id] else t.command.entryWait)
          = (if t.empties id n = true then ids ++ [id] else ids).filter t.stands
        split
        · rename_i hempty
          obtain ⟨y, hy, hid, -⟩ := (State.empties_iff h.consistent id n).1 hempty
          have hstands : t.stands id = true := (t.stands_iff id).2 ⟨y, hy, hid⟩
          rw [List.filter_append, List.filter_singleton, hstands, show t.command.entryWait = ids.filter t.stands from hawaits]
          rfl
        · exact hawaits
      · constructor
        · intro hid'
          have hcases : id' ∈ ids ∨ t.empties id n = true ∧ id' = id := by
            split at hid'
            · rename_i hempty
              exact (List.mem_append.1 hid').imp_right fun k => ⟨hempty, List.mem_singleton.1 k⟩
            · exact .inl hid'
          rcases hcases with hold | ⟨hempty, rfl⟩
          · obtain ⟨x, hx, hlive, hnone, hid⟩ := (hids id').1 hold
            exact ⟨x, hx, hlive, hstays hnone, hid⟩
          · obtain ⟨x, hx, hlive, -, hnone, hid⟩ := hempties.1 hempty
            exact ⟨x, hx, hlive, hnone, hid⟩
        · rintro ⟨x, hx, hlive, hnone, hid⟩
          by_cases hbefore : s.leftOf x l = 0
          · have hold := (hids id').2 ⟨x, hx, hlive, hbefore, hid⟩
            split
            · exact List.mem_append_left _ hold
            · exact hold
          · have hxid : x.id = id := by
              by_contra hne
              rw [hleft, if_neg hne] at hnone
              exact hbefore hnone
            rw [if_pos (hempties.2 ⟨x, hx, hlive, hbefore, hnone, hxid⟩)]
            exact List.mem_append_right _ (List.mem_singleton.2 (hid.symm.trans hxid))
    have hstream (m : StreamNo) : ((t.unnamed n id).removeFromEntry id n .streamsLeft).stream m
        = if m ∈ l ++ [n] then { s.stream m with scheduleEntry := none } else s.stream m := by
      have hm := htouches.stream m (fun k => k)
      rw [hm]
      by_cases hmn : m = n
      · subst hmn
        rw [if_pos ((hmem m).2 (.inr rfl)), ← hsame]
        exact State.stream_putStream _ _ _
      · refine (State.stream_putStream_of_ne _ _ (Ne.symm hmn)).trans ?_
        rw [h.stream]
        exact if_congr ((hmem m).trans (or_iff_left hmn)).symm rfl rfl
    have hprogress : ((t.unnamed n id).removeFromEntry id n .streamsLeft).command = { s.command with
        entryWait := ((t.unnamed n id).removeFromEntry id n .streamsLeft).command.entryWait } := by
      refine Eq.trans hcommand ?_
      show ({ t.command with entryWait := _ } : CommandUnit) = _
      rw [h.command]
    generalize (t.unnamed n id).removeFromEntry id n .streamsLeft = u at hleads hwaits hstream hprogress
    have hsplit (y : ScheduleEntry) (x : ScheduleEntry) (hid : y.id = x.id) (hset : y.streams = s.leftOf x l) :
        y.leftBy id n = s.leftOf x (l ++ [n]) := by
      rw [hleft, ScheduleEntry.leftBy, hid, hset]
    refine ⟨hstream, hprogress, hleads.consistent, h.entries.trans hleads.entries, hwaits, fun x hx hlive hne => ?_,
      fun x hx hends z hz hid hzlive => ?_⟩
    · obtain ⟨y, hy, hid, hylive, hset, hopen⟩ := h.stands x hx hlive fun k => hne (hstays k)
      rw [← hsplit y x hid hset] at hne ⊢
      rcases hleads.fates y hy with ⟨z, hz, hyz⟩ | ⟨-, z, hyz, ev, hev, -⟩
      · obtain ⟨hzlive, hzset, hzopen⟩ := (hyz.live hylive).1 hne
        exact ⟨z, hz, (sameCalls_removes _ _ _ y z hyz).1.trans hid, hzlive, hzset, hzopen.trans hopen⟩
      · rw [((hyz.live hylive).1 hne).2.2, hopen] at hev
        cases hev
    · obtain ⟨y, hy, hyz⟩ := hleads.back (sameCalls_removes _ _ _) hz
      have hyid : y.id = x.id := (sameCalls_removes _ _ _ y z hyz).1.symm.trans hid
      by_cases hylive : y.Live
      · obtain ⟨hxlive, -, hset⟩ := h.entry hx hy hyid hylive
        exact (hyz.live hylive).2 ((hsplit y x hyid hset).trans (hends hxlive)) hzlive
      · exact hyz.not_live hylive hzlive

/-- All of `l` are taken out, one after the other. -/
theorem State.foldl_stopRemoval_unnames {l : List StreamNo} (hl : l.Nodup) (hs : entriesConsistent s.schedule.entries)
    (hnone : s.command.entryWait = []) : s.Unnames l (l.foldl State.stopRemoval s) := by
  induction l using List.reverseRecOn with
  | nil => exact .refl hs hnone
  | append_singleton l n ih =>
    obtain ⟨hfirst, -, hdisj⟩ := List.nodup_append.1 hl
    rw [List.foldl_append]
    exact (ih hfirst).stopRemoval fun hn => hdisj n hn n (List.mem_singleton_self n) rfl

end Sys2Proof.Machine
end

section
/-! STOP NOW on its streams (R11, R16, R18, R20, R133, R134). -/

namespace Sys2Proof.Machine

variable {s t m : State} {n : StreamNo}

/-! ### A stream whose STOPPING ends in IDLE -/

/-- Stream `n`, which was in STOPPING in `m`, is IDLE with nothing more to report (R18). -/
structure State.Stopped (m : State) (n : StreamNo) (t : State) : Prop where
  run : (m.stream n).sameRun (t.stream n)
  state : (t.stream n).state = .idle
  entry : (t.stream n).scheduleEntry = (m.stream n).scheduleEntry
  limit : (t.stream n).drainLimit = none
  settled : t.isSettled n = true
  consistent : (t.stream n).reportConsistent = true
  ports : t.ports = m.ports

/-- A stream in STOPPING that still reports has neither left its entry nor ended its run anew. -/
theorem Stream.Settles.of_stopping {c d : Stream} (h : c.Settles d) (hc : c.state = .stopping) (hd : d.state = .stopping) :
    d.scheduleEntry = c.scheduleEntry ∧ d.drainLimit = c.drainLimit ∧ d.destination = c.destination
      ∧ d.stopOrigin = c.stopOrigin ∧ d.answerTo = c.answerTo ∧ d.drainAnswered = c.drainAnswered := by
  refine ⟨h.entry.resolve_right fun k => ?_, ?_⟩
  · simp [Stream.isRunning, hc] at k
  · rcases h.links with ⟨-, hlimit, hdestination, horigin, -, -, hanswer, -, -, hanswered⟩ | ⟨hidle, -⟩
    · exact ⟨hlimit, hdestination, horigin, hanswer, hanswered⟩
    · rw [hd] at hidle
      cases hidle

theorem Stream.Settles.sameRun {c d : Stream} (h : c.Settles d) : c.sameRun d := by
  rw [h.body]
  exact ⟨rfl, rfl, rfl, rfl, rfl⟩

theorem Stream.stoppingWith_sameRun (c : Stream) (d : Destination) (o : Option StopOrigin) (a : Option EntryId) :
    c.sameRun (c.stoppingWith d o a) := by
  rw [Stream.stoppingWith_body]
  exact ⟨rfl, rfl, rfl, rfl, rfl⟩

theorem Stream.sameRun.trans {c d e : Stream} (h : c.sameRun d) (k : d.sameRun e) : c.sameRun e := by
  obtain ⟨h1, h2, h3, h4, h5⟩ := h
  obtain ⟨k1, k2, k3, k4, k5⟩ := k
  exact ⟨k1.trans h1, k2.trans h2, k3.trans h3, k4.trans h4, k5.trans h5⟩

theorem State.StillStopping.stopped {v : State} (h : m.StillStopping n v) (hm : (m.stream n).state = .stopping)
    (hsilent : (v.stream n).pendingReport = none ∧ (v.stream n).faultOwed = none ∧ (v.stream n).stopOwed = none)
    (hends : v.stoppingEnds n = true) (hstream : t.stream n = (v.stream n).toIdle) (hports : t.ports = v.ports) :
    m.Stopped n t := by
  obtain ⟨hentry, -⟩ := h.settles.of_stopping hm h.state
  simp only [State.stoppingEnds, Bool.and_eq_true, List.isEmpty_iff] at hends
  refine ⟨?_, ?_, ?_, ?_, ?_, ?_, hports.trans h.ports⟩
  · rw [hstream]
    exact h.settles.sameRun
  · rw [hstream]
    rfl
  · rw [hstream]
    exact hentry
  · rw [hstream]
    rfl
  · rw [State.isSettled_iff_rests, hstream]
    refine .inr ((Stream.rests_taking_iff rfl _).2 ⟨hsilent.2.1, fun r hr => ?_, hsilent.2.2, rfl⟩)
    rw [show (v.stream n).toIdle.staging = [] from hends.1.2] at hr
    cases hr
  · rw [hstream]
    exact Stream.toIdle_keepsReports _ h.consistent

/-- A stream in STOPPING whose report waits stays in STOPPING. -/
theorem State.StillStopping.stopWaits {v : State} (h : m.StillStopping n v) {r : PendingReport} (hr : r.drainRun = false) :
    m.StillStopping n (v.putStream n { v.stream n with pendingReport := some r }) := by
  have hwaits : (v.putStream n { v.stream n with pendingReport := some r }).stream n = { v.stream n with pendingReport := some r } :=
    State.stream_putStream _ _ _
  have hconsistent : ({ v.stream n with pendingReport := some r } : Stream).reportConsistent = true := by
    obtain ⟨howed, -, -⟩ := (Stream.reportConsistent_iff _).1 h.consistent
    refine (Stream.reportConsistent_iff _).2 ⟨howed, ?_, fun hclosed => ?_⟩
    · rintro _ ⟨⟩ hdrain
      rw [hr] at hdrain
      cases hdrain
    · rw [show _ = StreamState.stopping from h.state] at hclosed
      cases hclosed
  refine ⟨?_, ?_, ?_, h.command, h.schedule, h.ports⟩ <;> rw [hwaits]
  · exact h.settles.trans ⟨rfl, List.suffix_rfl, .inl rfl, .inl ⟨rfl, rfl, rfl, rfl, rfl, rfl, rfl, rfl, rfl, rfl⟩,
      fun _ => hconsistent⟩
  · exact h.state
  · exact hconsistent

/-- The command no longer waits for the stream. -/
def CommandUnit.arrived (c : CommandUnit) (n : StreamNo) : CommandUnit := { c with streamWait := c.streamWait &&& ~~~streamBit n }

/-- A stream that a command stops is examined: it is in STOPPING, or IDLE and no longer waited for (R18, R134). -/
theorem State.settle_stopped (hstate : (m.stream n).state = .stopping) (hd : (m.stream n).destination = some .idle)
    (ho : (m.stream n).stopOrigin = some .command) (hreports : (m.stream n).reportConsistent = true) :
    m.StillStopping n (m.settle n)
      ∨ m.Stopped n (m.settle n) ∧ (m.settle n).command = m.command.arrived n ∧ (m.settle n).schedule = m.schedule := by
  refine State.settle_stopping (Q := fun t => m.Stopped n t ∧ t.command = m.command.arrived n ∧ t.schedule = m.schedule)
    hstate hreports (fun v hstill hsilent hends => ?_) fun t u hstopped hu => ?_
  · obtain ⟨-, -, hdestination, horigin, -⟩ := hstill.settles.of_stopping hstate hstill.state
    have hdestination' : (v.stream n).destination ≠ some .closed := by
      rw [hdestination, hd]
      nofun
    have horigin' : (v.stream n).stopOrigin ≠ some .entry := by
      rw [horigin, ho]
      nofun
    cases hr : (v.stream n).stopReported with
    | true =>
      rw [State.endStopping_reported hdestination' horigin' hr]
      refine .inr ⟨hstill.stopped hstate hsilent hends (State.stream_modifyStream _ _ _) rfl, ?_, hstill.schedule⟩
      rw [← hstill.command]
      rfl
    | false =>
      rw [State.endStopping_reports hdestination' horigin' hr]
      cases ha : v.accepts n (v.stream n) false with
      | true =>
        rw [State.produce_accepted _ ha]
        refine .inr ⟨hstill.stopped hstate hsilent hends (State.stream_putStream _ _ _) rfl, ?_, hstill.schedule⟩
        rw [← hstill.command]
        rfl
      | false =>
        rw [State.produce_waits _ ha]
        exact .inl (hstill.stopWaits rfl)
  · have hsettled := hstopped.1.settled
    rw [State.isSettled, hu] at hsettled
    cases hsettled

/-! ### STOP NOW on one stream -/

/-- The context of an ARMED stream that STOP NOW disarms (R11). -/
def Stream.disarmed (c : Stream) : Stream := { c with state := .idle, drainAnswered := false }

theorem State.stopStream_armed (h : (s.stream n).state = .armed) : s.stopStream n = s.putStream n (s.stream n).disarmed := by
  unfold State.stopStream
  rw [h]
  rfl

/-- The stream as STOP NOW enters it into STOPPING (R16, R20). -/
def State.stopping (s : State) (n : StreamNo) : State := s.enterStopping n .idle (some .command) none

theorem State.stopStream_stops (h : (s.stream n).state ≠ .armed) : s.stopStream n = (s.stopping n).settle n := by
  unfold State.stopStream
  rw [if_neg (by simpa using h)]
  rfl

theorem State.stopping_stream (s : State) (n : StreamNo) :
    (s.stopping n).stream n = (s.stream n).stoppingWith .idle (some .command) none := State.enterStopping_stream _ _ _ _ _

theorem State.stopping_frame (s : State) (n : StreamNo) :
    (s.stopping n).command = s.command ∧ (s.stopping n).schedule = s.schedule ∧ (s.stopping n).ports = s.ports := by
  rw [State.stopping, State.enterStopping_frame]
  exact ⟨rfl, rfl, rfl⟩

/-- What STOP NOW leaves of a stream that it stops: STOPPING and waited for, or IDLE (R18, R133, R134). -/
theorem State.stopping_ends (hreports : (s.stream n).reportConsistent = true) :
    (s.stopping n).StillStopping n ((s.stopping n).settle n)
      ∨ (s.stopping n).Stopped n ((s.stopping n).settle n)
        ∧ ((s.stopping n).settle n).command = s.command.arrived n ∧ ((s.stopping n).settle n).schedule = s.schedule := by
  obtain ⟨hcommand, hschedule, -⟩ := s.stopping_frame n
  rw [← hcommand, ← hschedule]
  refine State.settle_stopped ?_ ?_ ?_ ?_ <;> rw [State.stopping_stream]
  · rw [Stream.stoppingWith_body]
  · rw [Stream.stoppingWith_body]
  · rw [Stream.stoppingWith_body]
  · exact (Stream.stoppingWith_carries _ _ _ _).reports hreports

theorem Stream.disarmed_carries (c : Stream) : c.Carries c.disarmed :=
  Stream.carries_links rfl nofun nofun

/-- STOP NOW on one stream leaves the Schedule Unit alone, and the command waits for that stream or no longer does. -/
theorem State.stopStream_quiet (hreports : ∀ k, (s.stream k).reportConsistent = true) :
    (s.stopStream n).schedule = s.schedule
      ∧ ((s.stopStream n).command = s.command ∨ (s.stopStream n).command = s.command.arrived n)
      ∧ ∀ k, ((s.stopStream n).stream k).reportConsistent = true := by
  by_cases harmed : (s.stream n).state = .armed
  · rw [State.stopStream_armed harmed]
    refine ⟨rfl, .inl rfl, fun k => ?_⟩
    rcases eq_or_ne n k with rfl | hne
    · rw [State.stream_putStream]
      exact (Stream.disarmed_carries _).reports (hreports n)
    · rw [State.stream_putStream_of_ne _ _ hne]
      exact hreports k
  · rw [State.stopStream_stops harmed]
    obtain ⟨hcommand, hschedule, -⟩ := s.stopping_frame n
    have hothers {k : StreamNo} (hne : k ≠ n) : ((s.stopping n).settle n).stream k = s.stream k := by
      have htouches := (s.enterStopping_touches n .idle (some .command) none).trans ((s.stopping n).settle_touches n)
      exact htouches.stream k hne
    rcases State.stopping_ends (hreports n) with hstill | ⟨hstopped, harrived, hsame⟩
    · refine ⟨hstill.schedule.trans hschedule, .inl (hstill.command.trans hcommand), fun k => ?_⟩
      rcases eq_or_ne k n with rfl | hne
      · exact hstill.consistent
      · rw [hothers hne]
        exact hreports k
    · refine ⟨hsame, .inr harrived, fun k => ?_⟩
      rcases eq_or_ne k n with rfl | hne
      · exact hstopped.consistent
      · rw [hothers hne]
        exact hreports k

/-- `t` is `s` after STOP NOW on other streams than `n`. -/
structure State.Beside (n : StreamNo) (s t : State) : Prop where
  apart : State.Apart (· ≠ n) s t
  waits : t.command.streamWait.getLsbD n.val = s.command.streamWait.getLsbD n.val
  reports : ∀ k, (t.stream k).reportConsistent = true

/-- While every stream's reports are consistent, `t` is `s` after STOP NOW on other streams. -/
def State.StopsBeside (n : StreamNo) (s t : State) : Prop := (∀ k, (s.stream k).reportConsistent = true) → s.Beside n t

theorem State.StopsBeside.refl (n : StreamNo) (s : State) : State.StopsBeside n s s := fun h => ⟨.refl _ s, rfl, h⟩

theorem State.StopsBeside.trans {u : State} (h : State.StopsBeside n s t) (k : State.StopsBeside n t u) : State.StopsBeside n s u :=
  fun hs =>
    have ht := h hs
    have hu := k ht.reports
    ⟨ht.apart.trans hu.apart, hu.waits.trans ht.waits, hu.reports⟩

theorem State.stopStream_beside {k : StreamNo} (hne : k ≠ n) (s : State) : State.StopsBeside n s (s.stopStream k) := fun h => by
  obtain ⟨-, hcommand, hreports⟩ := State.stopStream_quiet (n := k) h
  refine ⟨?_, ?_, hreports⟩
  · have K := apart_kept (· ≠ n) s
    by_cases harmed : (s.stream k).state = .armed
    · rw [State.stopStream_armed harmed]
      exact K.context s k _ (.refl _ s) hne (Stream.disarmed_carries _)
    · rw [State.stopStream_stops harmed]
      exact K.settle hne (K.enterStopping hne _ _ _ (.refl _ s))
  · rcases hcommand with h | h <;> rw [h]
    rw [Bool.eq_iff_iff]
    exact (getLsbD_without _ _ _).trans (and_iff_left hne.symm)

/-- STOP NOW on each of several streams, as one of them meets it. -/
theorem State.foldl_stopStream_visit {l : List StreamNo} (hl : l.Nodup) (hn : n ∈ l) (h : ∀ k, (s.stream k).reportConsistent = true) :
    ∃ v, s.Beside n v ∧ (v.stopStream n).Beside n (l.foldl State.stopStream s) := by
  obtain ⟨v, hv, hfinal⟩ := State.foldl_visit State.stopStream (R := State.StopsBeside n) (.refl n) .trans l hl hn
    (fun u k _ hne => State.stopStream_beside hne u) s
  exact ⟨v, hv h, hfinal (State.stopStream_quiet (hv h).reports).2.2⟩

theorem State.foldl_stopStream_beside {l : List StreamNo} (hn : n ∉ l) (h : ∀ k, (s.stream k).reportConsistent = true) :
    s.Beside n (l.foldl State.stopStream s) :=
  State.foldl_kept (P := State.StopsBeside n s) _ _ (fun t k hk ht => ht.trans (State.stopStream_beside (by
    rintro rfl
    exact hn hk) t)) (.refl n s) h

/-- STOP NOW on its streams leaves the Schedule Unit alone, and of the command in progress changes the stream wait set. -/
theorem State.foldl_stopStream_quiet (l : List StreamNo) (h : ∀ k, (s.stream k).reportConsistent = true) :
    (l.foldl State.stopStream s).schedule = s.schedule
      ∧ (l.foldl State.stopStream s).command = { s.command with
        streamWait := (l.foldl State.stopStream s).command.streamWait } := by
  have hkept := State.foldl_kept (P := fun t => (∀ k, (t.stream k).reportConsistent = true) ∧ t.schedule = s.schedule
    ∧ t.command = { s.command with streamWait := t.command.streamWait }) State.stopStream l
    (fun t k _ ⟨hreports, hschedule, hcommand⟩ => ?_) ⟨h, rfl, rfl⟩
  · exact hkept.2
  · obtain ⟨hquiet, hcommand', hreports'⟩ := State.stopStream_quiet (n := k) hreports
    refine ⟨hreports', hquiet.trans hschedule, ?_⟩
    rcases hcommand' with h | h
    · rw [h]
      exact hcommand
    · rw [h]
      show ({ t.command with streamWait := _ } : CommandUnit) = _
      rw [hcommand]
      rfl

end Sys2Proof.Machine
end

section
/-! STOP NOW as a whole (R133, R134). -/

namespace Sys2Proof.Machine

variable {s t : State} {n : StreamNo}

/-! ### What a STOP NOW leaves alone -/

theorem State.examineEntry_transfers (s : State) (id : EntryId) : (s.examineEntry id).transfers = s.transfers := by
  unfold State.examineEntry
  split
  · rfl
  · split
    · exact State.offerSchedule_transfers _
    · rfl

theorem State.removeFromEntry_transfers (s : State) (id : EntryId) (n : StreamNo) (reason : ClearReason) :
    (s.removeFromEntry id n reason).transfers = s.transfers := by
  unfold State.removeFromEntry
  split
  · rfl
  · split
    · exact State.examineEntry_transfers _ id
    · rfl

theorem State.stopRemoval_touches (s : State) (n : StreamNo) : State.Touches (onlyStream n) s (s.stopRemoval n) := by
  cases h : (s.stream n).scheduleEntry with
  | none =>
    rw [State.stopRemoval_unnamed h]
    exact .refl _ s
  | some id =>
    rw [State.stopRemoval_named h]
    have hunnamed : State.Touches (onlyStream n) (s.modifyStream n (fun c => { c with scheduleEntry := none })) (s.unnamed n id) := by
      constructor <;> intros <;> rfl
    exact ((s.modifyStream_touches n _).trans hunnamed).trans ((State.removeFromEntry_touches _ _ _ _).any _)

theorem State.stopRemoval_beyond {touched halted : StreamNo → Prop} (hn : touched n) (s : State) :
    State.Beyond touched halted s (s.stopRemoval n) := by
  refine ((s.stopRemoval_touches n).mono fun _ k => k ▸ hn).beyond ?_ ?_
  · cases h : (s.stream n).scheduleEntry with
    | none =>
      rw [State.stopRemoval_unnamed h]
      exact .refl s
    | some id =>
      rw [State.stopRemoval_named h]
      have hunnamed : s.EventsGrow (s.unnamed n id) := .of_eq rfl
      exact (eventsGrow_kept s).scheduleOps.removeFromEntry id n _ hunnamed
  · cases h : (s.stream n).scheduleEntry with
    | none => rw [State.stopRemoval_unnamed h]
    | some id =>
      rw [State.stopRemoval_named h, State.removeFromEntry_transfers]
      rfl

theorem State.Beyond.widen {touched touched' halted halted' : StreamNo → Prop} (h : State.Beyond touched halted s t)
    (htouched : ∀ m, touched m → touched' m) (hhalted : ∀ m, halted m → halted' m) : State.Beyond touched' halted' s t :=
  ⟨fun m hm => h.stream m fun k => hm (htouched m k), fun m hm => h.port m fun k => hm (htouched m k),
    (h.mono hhalted).transfers, h.events⟩

theorem State.stopStream_beyond {touched halted : StreamNo → Prop} (hn : touched n)
    (hhalted : (s.stream n).state ≠ .armed → halted n) : State.Beyond touched halted s (s.stopStream n) := by
  by_cases harmed : (s.stream n).state = .armed
  · rw [State.stopStream_armed harmed]
    exact ((s.putStream_touches n _).mono fun _ k => k ▸ hn).beyond (.refl s) rfl
  · rw [State.stopStream_stops harmed]
    have K := beyond_kept (· = n) s
    exact (K.settle rfl (K.enterStopping rfl _ _ _ (.refl _ _ s))).widen (fun _ k => k ▸ hn) fun _ k => k ▸ hhalted harmed

theorem State.stopStream_touches (s : State) (n : StreamNo) : State.Touches (onlyStream n) s (s.stopStream n) := by
  by_cases harmed : (s.stream n).state = .armed
  · rw [State.stopStream_armed harmed]
    exact s.putStream_touches n _
  · rw [State.stopStream_stops harmed]
    exact (s.enterStopping_touches n _ _ _).trans ((s.stopping n).settle_touches n)

/-- STOP NOW on its streams halts those that are not ARMED and changes the named ones alone. -/
theorem State.foldl_stopStream_beyond {touched halted : StreamNo → Prop} (l : List StreamNo) (hl : l.Nodup)
    (htouched : ∀ k ∈ l, touched k) (s : State) (hhalted : ∀ k ∈ l, (s.stream k).state ≠ .armed → halted k) :
    State.Beyond touched halted s (l.foldl State.stopStream s) := by
  induction l generalizing s with
  | nil => exact .refl _ _ s
  | cons k l ih =>
    obtain ⟨hk, hl⟩ := List.nodup_cons.1 hl
    refine (State.stopStream_beyond (htouched k List.mem_cons_self) (hhalted k List.mem_cons_self)).trans
      (ih hl (fun m hm => htouched m (List.mem_cons_of_mem _ hm)) _ fun m hm => ?_)
    have hsame := (s.stopStream_touches k).stream m (show ¬m = k from fun h => hk (h ▸ hm))
    rw [hsame]
    exact hhalted m (List.mem_cons_of_mem _ hm)

/-! ### A stream that STOP NOW stops -/

/-- What STOP NOW leaves of a stream that it stops: in STOPPING and waited for, or IDLE and no longer waited for. -/
structure State.StopLeaves (s : State) (n : StreamNo) (t : State) : Prop where
  run : (s.stream n).sameRun (t.stream n)
  entry : (t.stream n).scheduleEntry = none
  limit : (t.stream n).drainLimit = none
  ends : ((s.stream n).stoppingWith .idle (some .command) none).Settles (t.stream n) ∧ (t.stream n).state = .stopping
      ∧ t.command.streamWait.getLsbD n.val = s.command.streamWait.getLsbD n.val
    ∨ (t.stream n).state = .idle ∧ t.command.streamWait.getLsbD n.val = false

theorem State.stopStream_leaves (hreports : (s.stream n).reportConsistent = true) (h : (s.stream n).state ≠ .armed) :
    s.StopLeaves n (s.stopStream n) := by
  have hrun : (s.stream n).sameRun ((s.stopping n).stream n) := by
    rw [State.stopping_stream]
    exact Stream.stoppingWith_sameRun _ _ _ _
  have hentry : ((s.stopping n).stream n).scheduleEntry = none := by rw [State.stopping_stream, Stream.stoppingWith_body]
  have hlimit : ((s.stopping n).stream n).drainLimit = none := by rw [State.stopping_stream, Stream.stoppingWith_body]
  have hstate : ((s.stopping n).stream n).state = .stopping := by rw [State.stopping_stream, Stream.stoppingWith_body]
  rw [State.stopStream_stops h]
  rcases State.stopping_ends hreports with hstill | ⟨hstopped, hcommand, -⟩
  · obtain ⟨hsame, hsameLimit, -⟩ := hstill.settles.of_stopping hstate hstill.state
    refine ⟨hrun.trans hstill.settles.sameRun, hsame.trans hentry, hsameLimit.trans hlimit, .inl ⟨?_, hstill.state, ?_⟩⟩
    · rw [← State.stopping_stream]
      exact hstill.settles
    · rw [hstill.command, (s.stopping_frame n).1]
  · refine ⟨hrun.trans hstopped.run, hstopped.entry.trans hentry, hstopped.limit, .inr ⟨hstopped.state, ?_⟩⟩
    rw [hcommand]
    exact streamWait_cleared _ n

/-- A stream that STOP NOW stops, among the others (R133, R134). -/
theorem State.foldl_stopStream_leaves {l : List StreamNo} (hl : l.Nodup) (hn : n ∈ l) (hreports : ∀ k, (s.stream k).reportConsistent = true)
    (h : (s.stream n).state ≠ .armed) : s.StopLeaves n (l.foldl State.stopStream s) := by
  obtain ⟨v, hbefore, hafter⟩ := State.foldl_stopStream_visit hl hn hreports
  have hv : v.stream n = s.stream n := hbefore.apart.beyond.stream n (not_not_intro rfl)
  have hleaves := State.stopStream_leaves (hbefore.reports n) (by rw [hv]; exact h)
  have hfinal : (l.foldl State.stopStream s).stream n = (v.stopStream n).stream n :=
    hafter.apart.beyond.stream n (not_not_intro rfl)
  obtain ⟨hrun, hentry, hlimit, hends⟩ := hleaves
  rw [hv] at hrun hends
  rw [hbefore.waits] at hends
  refine ⟨?_, ?_, ?_, ?_⟩ <;> rw [hfinal]
  · exact hrun
  · exact hentry
  · exact hlimit
  · rw [hafter.waits]
    exact hends

/-- The reads of a stream that STOP NOW stops stand marked (R66). -/
theorem State.foldl_stopStream_marks {l : List StreamNo} (hl : l.Nodup) (hn : n ∈ l) (hreports : ∀ k, (s.stream k).reportConsistent = true)
    (h : (s.stream n).state ≠ .armed) : ∃ v, ((s.stream n).direction = .output → v.AllMarked n)
      ∧ (∀ e r, s.transfer e = some r → v.transfer e = some r ∨ v.transfer e = some { r with discard := true })
      ∧ State.MarksReads (fun _ => True) v (l.foldl State.stopStream s) := by
  obtain ⟨v, hbefore, hafter⟩ := State.foldl_stopStream_visit hl hn hreports
  have hv : v.stream n = s.stream n := hbefore.apart.beyond.stream n (not_not_intro rfl)
  have hstops : State.Beyond (· = n) (· = n) v (v.stopping n) := (beyond_kept (· = n) v).enterStopping rfl _ _ _ (.refl _ _ v)
  refine ⟨v.stopping n, fun hd => State.enterStopping_allMarked _ _ _ (by rw [hv]; exact hd), fun e r hr => ?_, ?_⟩
  · rcases hbefore.apart.beyond.transfers e r hr with hv | ⟨hv, -⟩
    · exact (hstops.transfers e r hv).imp_right And.left
    · rcases hstops.transfers e _ hv with hv | ⟨hv, -⟩ <;> exact .inr hv
  · rw [State.stopStream_stops (by rw [hv]; exact h)] at hafter
    have hfinal := hafter.apart.beyond.widen (touched' := fun _ => True) (halted' := fun _ => True) (fun _ _ => trivial) fun _ _ => trivial
    intro e r hr
    refine hfinal.transfers e r ?_
    rw [State.transfer, State.settle_transfers]
    exact hr

/-- An ARMED stream that STOP NOW disarms, among the others (R11). -/
theorem State.foldl_stopStream_disarms {l : List StreamNo} (hl : l.Nodup) (hn : n ∈ l) (hreports : ∀ k, (s.stream k).reportConsistent = true)
    (h : (s.stream n).state = .armed) : (l.foldl State.stopStream s).stream n = (s.stream n).disarmed
      ∧ (l.foldl State.stopStream s).command.streamWait.getLsbD n.val = s.command.streamWait.getLsbD n.val := by
  obtain ⟨v, hbefore, hafter⟩ := State.foldl_stopStream_visit hl hn hreports
  have hv : v.stream n = s.stream n := hbefore.apart.beyond.stream n (not_not_intro rfl)
  have hfinal : (l.foldl State.stopStream s).stream n = (v.stopStream n).stream n :=
    hafter.apart.beyond.stream n (not_not_intro rfl)
  have hwaits := hafter.waits
  rw [State.stopStream_armed (by rw [hv]; exact h), hv] at hfinal hwaits
  exact ⟨hfinal.trans (State.stream_putStream _ _ _), hwaits.trans hbefore.waits⟩

/-! ### The sets of the answer -/

theorem mem_setOf (l : List StreamNo) (n : StreamNo) : (setOf l).getLsbD n.val = true ↔ n ∈ l := by
  induction l with
  | nil => simp [setOf]
  | cons m l ih =>
    rw [show setOf (m :: l) = streamBit m ||| setOf l from rfl, BitVec.getLsbD_or, Bool.or_eq_true, ih, getLsbD_streamBit,
      decide_eq_true_eq, List.mem_cons]

theorem filter_streamsOf (set : StreamSet) (p : StreamNo → Bool) :
    (streamsOf set).filter p = Config.streams.filter (fun n => set.getLsbD n.val && p n) := by
  rw [streamsOf, List.filter_filter]
  exact List.filter_congr fun n _ => Bool.and_comm _ _

/-- The order in which STOP NOW takes its streams (log 12). -/
def State.stopOrder (s : State) (p : ScheduleParams) : List StreamNo := s.takeOrder.1.filter (fun n => p.streams.getLsbD n.val)

theorem State.stopOrder_nodup (s : State) (p : ScheduleParams) : (s.stopOrder p).Nodup := s.takeOrder_nodup.filter _

theorem State.mem_stopOrder (s : State) (p : ScheduleParams) (n : StreamNo) :
    n ∈ s.stopOrder p ↔ p.streams.getLsbD n.val = true := by
  rw [State.stopOrder, List.mem_filter]
  exact and_iff_right (s.mem_takeOrder n)

/-- The state in which STOP NOW begins with its streams. -/
def State.stopBegins (s : State) (result : List Byte) (stopped : StreamSet) : State :=
  s.takeOrder.2.awaitCompletion result stopped []

/-- The state once STOP NOW has taken its streams out of their entries. -/
def State.stopUnnamed (s : State) (p : ScheduleParams) (result : List Byte) (stopped : StreamSet) : State :=
  (s.stopOrder p).foldl State.stopRemoval (s.stopBegins result stopped)

/-- The state once STOP NOW has stopped its streams. -/
def State.stopEnded (s : State) (p : ScheduleParams) (result : List Byte) (stopped : StreamSet) : State :=
  (s.stopOrder p).foldl State.stopStream (s.stopUnnamed p result stopped)

theorem State.stopNamed_eq (s : State) (p : ScheduleParams) : s.stopNamed p =
    let named (n : StreamNo) : Bool := p.streams.getLsbD n.val
    let stopped := setOf (Config.streams.filter fun n => named n && (s.stream n).state != .armed)
    let disarmed := setOf (Config.streams.filter fun n => named n && (s.stream n).state == .armed)
    (s.stopEnded p (leBytes 1 stopped.toNat ++ leBytes 1 disarmed.toNat) stopped).examineCommand := by
  unfold State.stopNamed
  dsimp only
  rw [filter_streamsOf, filter_streamsOf]
  rfl

section
variable (s : State) (p : ScheduleParams) (result : List Byte) (stopped : StreamSet)

theorem State.stopBegins_eq : s.stopBegins result stopped = { s with
    orderChoices := s.takeOrder.2.orderChoices
    command := { s.command with
      phase := .completing
      inProgress := s.command.inProgress.map (fun p => { p with result := result })
      streamWait := stopped
      entryWait := [] } } := by
  rw [State.stopBegins, State.takeOrder_snd]
  rfl

theorem State.stopUnnamed_unnames (hs : entriesConsistent s.schedule.entries) :
    (s.stopBegins result stopped).Unnames (s.stopOrder p) (s.stopUnnamed p result stopped) := by
  refine State.foldl_stopRemoval_unnames (s.stopOrder_nodup p) ?_ ?_
  · rw [State.stopBegins_eq]
    exact hs
  · rw [State.stopBegins_eq]

theorem State.stopEnded_touches :
    State.Touches (fun n => p.streams.getLsbD n.val = true) (s.stopBegins result stopped) (s.stopEnded p result stopped) := by
  have hnamed {m k : StreamNo} (hk : k ∈ s.stopOrder p) (hm : onlyStream k m) : p.streams.getLsbD m.val = true :=
    (show m = k from hm) ▸ (s.mem_stopOrder p k).1 hk
  exact (State.Touches.foldl _ _ (fun t k hk => (t.stopRemoval_touches k).mono fun _ => hnamed hk) _).trans
    (State.Touches.foldl _ _ (fun t k hk => (t.stopStream_touches k).mono fun _ => hnamed hk) _)

theorem State.stopEnded_control :
    s.agreesInControl (s.stopEnded p result stopped) ∧ (s.stopEnded p result stopped).timebase = s.timebase := by
  have htouches := s.stopEnded_touches p result stopped
  have hcontrol := State.Touches.control htouches
  have htimebase := htouches.timebase
  unfold State.agreesInControl at hcontrol ⊢
  rw [State.stopBegins_eq] at hcontrol htimebase
  exact ⟨hcontrol, htimebase⟩

theorem State.stopUnnamed_beyond {touched halted : StreamNo → Prop} (h : ∀ n : StreamNo, p.streams.getLsbD n.val = true → touched n) :
    State.Beyond touched halted s (s.stopUnnamed p result stopped) := by
  refine State.foldl_kept (P := State.Beyond touched halted s) _ _
    (fun t k hk ht => ht.trans (State.stopRemoval_beyond (h k ((s.mem_stopOrder p k).1 hk)) t)) ?_
  rw [State.stopBegins_eq]
  exact ⟨fun _ _ => rfl, fun _ _ => rfl, .of_eq rfl, .of_eq rfl⟩

/-- The stream once it is out of its entry. -/
theorem State.stopUnnamed_stream (hs : entriesConsistent s.schedule.entries) (n : StreamNo) :
    (s.stopUnnamed p result stopped).stream n
      = if p.streams.getLsbD n.val = true then { s.stream n with scheduleEntry := none } else s.stream n := by
  have hstream := (s.stopUnnamed_unnames p result stopped hs).stream n
  rw [hstream, State.stopBegins_eq]
  exact if_congr (s.mem_stopOrder p n) rfl rfl

theorem State.stopEnded_beyond (hs : entriesConsistent s.schedule.entries) :
    State.Beyond (fun n => p.streams.getLsbD n.val = true)
      (fun n => p.streams.getLsbD n.val = true ∧ (s.stream n).state ≠ .armed) s (s.stopEnded p result stopped) := by
  refine (s.stopUnnamed_beyond p result stopped fun _ h => h).trans (State.foldl_stopStream_beyond _ (s.stopOrder_nodup p)
    (fun k hk => (s.mem_stopOrder p k).1 hk) _ fun k hk hstate => ?_)
  have hnamed := (s.mem_stopOrder p k).1 hk
  rw [s.stopUnnamed_stream p result stopped hs, if_pos hnamed] at hstate
  exact ⟨hnamed, hstate⟩

/-- The command in progress once STOP NOW has stopped its streams. -/
theorem State.stopEnded_command (hs : entriesConsistent s.schedule.entries) (hreports : ∀ n, (s.stream n).reportConsistent = true) :
    (s.stopEnded p result stopped).command = { s.command with
        phase := .completing
        inProgress := s.command.inProgress.map (fun p => { p with result := result })
        streamWait := (s.stopEnded p result stopped).command.streamWait
        entryWait := (s.stopEnded p result stopped).command.entryWait }
      ∧ (∀ x ∈ s.schedule.entries, x.Live ∧ s.leftOf x (s.stopOrder p) = 0 →
        (x.id ∈ (s.stopEnded p result stopped).command.entryWait
          ↔ ∃ y ∈ (s.stopEnded p result stopped).schedule.entries, y.id = x.id))
      ∧ ∀ id ∈ (s.stopEnded p result stopped).command.entryWait,
        ∃ x ∈ s.schedule.entries, (x.Live ∧ s.leftOf x (s.stopOrder p) = 0) ∧ x.id = id := by
  have hunnames := s.stopUnnamed_unnames p result stopped hs
  have hreports' (n : StreamNo) : ((s.stopUnnamed p result stopped).stream n).reportConsistent = true := by
    rw [s.stopUnnamed_stream p result stopped hs]
    split <;> exact hreports n
  obtain ⟨hschedule, hcommand⟩ := State.foldl_stopStream_quiet (s.stopOrder p) hreports'
  obtain ⟨ids, hawaits, hids⟩ := hunnames.waits
  have hbefore := hunnames.command
  rw [State.stopBegins_eq] at hids hbefore
  have hentryWait : (s.stopEnded p result stopped).command.entryWait = ids.filter (s.stopUnnamed p result stopped).stands := by
    have hsame := congrArg CommandUnit.entryWait hcommand
    exact Eq.trans hsame hawaits
  have hmem (id : EntryId) : id ∈ (s.stopEnded p result stopped).command.entryWait
      ↔ (∃ x ∈ s.schedule.entries, x.Live ∧ s.leftOf x (s.stopOrder p) = 0 ∧ x.id = id)
        ∧ ∃ y ∈ (s.stopEnded p result stopped).schedule.entries, y.id = id := by
    rw [hentryWait, List.mem_filter, State.stands_iff, hids]
    refine and_congr_right fun _ => ?_
    rw [show (s.stopEnded p result stopped).schedule = _ from hschedule]
  refine ⟨?_, fun x hx ⟨hlive, hnone⟩ => ?_, fun id hid => ?_⟩
  · have hsame := congrArg CommandUnit.entryWait hcommand
    refine Eq.trans hcommand ?_
    rw [show (s.stopEnded p result stopped).command.entryWait = _ from hsame]
    show ({ (s.stopUnnamed p result stopped).command with streamWait := _ } : CommandUnit) = _
    rw [show (s.stopUnnamed p result stopped).command = _ from hbefore]
    rfl
  · rw [hmem]
    exact and_iff_right ⟨x, hx, hlive, hnone, rfl⟩
  · obtain ⟨⟨x, hx, hlive, hnone, hxid⟩, -⟩ := (hmem id).1 hid
    exact ⟨x, hx, ⟨hlive, hnone⟩, hxid⟩

/-- Each stream as STOP NOW leaves it, and whether the command waits for it. -/
theorem State.stopEnded_stopped (hs : entriesConsistent s.schedule.entries) (hreports : ∀ n, (s.stream n).reportConsistent = true)
    {n : StreamNo} (hn : p.streams.getLsbD n.val = true) (h : (s.stream n).state ≠ .armed) :
    (s.stopUnnamed p result stopped).StopLeaves n (s.stopEnded p result stopped) := by
  refine State.foldl_stopStream_leaves (s.stopOrder_nodup p) ((s.mem_stopOrder p n).2 hn) (fun k => ?_) ?_
  · rw [s.stopUnnamed_stream p result stopped hs]
    split <;> exact hreports k
  · rw [s.stopUnnamed_stream p result stopped hs, if_pos hn]
    exact h

/-- The command waits for the streams that are still in STOPPING. -/
theorem State.stopEnded_waits (hs : entriesConsistent s.schedule.entries) (hreports : ∀ n, (s.stream n).reportConsistent = true)
    (hstopped : ∀ n : StreamNo, stopped.getLsbD n.val = true ↔ p.streams.getLsbD n.val = true ∧ (s.stream n).state ≠ .armed)
    (n : StreamNo) : (s.stopEnded p result stopped).command.streamWait.getLsbD n.val = true
      ↔ (p.streams.getLsbD n.val = true ∧ (s.stream n).state ≠ .armed)
        ∧ ((s.stopEnded p result stopped).stream n).state = .stopping := by
  have hbegun : (s.stopUnnamed p result stopped).command.streamWait = stopped := by
    have hcommand := congrArg CommandUnit.streamWait (s.stopUnnamed_unnames p result stopped hs).command
    refine Eq.trans hcommand ?_
    rw [State.stopBegins_eq]
  have hreports' (k : StreamNo) : ((s.stopUnnamed p result stopped).stream k).reportConsistent = true := by
    rw [s.stopUnnamed_stream p result stopped hs]
    split <;> exact hreports k
  have hstream := s.stopUnnamed_stream p result stopped hs n
  by_cases hn : p.streams.getLsbD n.val = true
  · rw [if_pos hn] at hstream
    by_cases harmed : (s.stream n).state = .armed
    · obtain ⟨-, hwaits⟩ := State.foldl_stopStream_disarms (s.stopOrder_nodup p) ((s.mem_stopOrder p n).2 hn) hreports'
        (by rw [hstream]; exact harmed)
      rw [show (s.stopEnded p result stopped).command.streamWait.getLsbD n.val = _ from hwaits, hbegun, hstopped]
      exact ⟨fun k => absurd harmed k.2, fun k => absurd harmed k.1.2⟩
    · rcases (s.stopEnded_stopped p result stopped hs hreports hn harmed).ends with ⟨-, hstate, hwaits⟩ | ⟨hstate, hwaits⟩
      · rw [hwaits, hbegun, hstopped]
        exact ⟨fun k => ⟨k, hstate⟩, And.left⟩
      · rw [hwaits, hstate]
        exact ⟨nofun, fun k => nomatch k.2⟩
  · have hwaits := (State.foldl_stopStream_beside (mt (s.mem_stopOrder p n).1 hn) hreports').waits
    rw [show (s.stopEnded p result stopped).command.streamWait.getLsbD n.val = _ from hwaits, hbegun, hstopped]
    exact ⟨fun k => absurd k.1 hn, fun k => absurd k.1.1 hn⟩

/-- A stream that STOP NOW disarms (R11). -/
theorem State.stopEnded_disarmed (hs : entriesConsistent s.schedule.entries) (hreports : ∀ n, (s.stream n).reportConsistent = true)
    {n : StreamNo} (hn : p.streams.getLsbD n.val = true) (h : (s.stream n).state = .armed) :
    (s.stopEnded p result stopped).stream n = { s.stream n with state := .idle, scheduleEntry := none, drainAnswered := false } := by
  have hstream := s.stopUnnamed_stream p result stopped hs
  obtain ⟨hdisarmed, -⟩ := State.foldl_stopStream_disarms (s := s.stopUnnamed p result stopped) (s.stopOrder_nodup p)
    ((s.mem_stopOrder p n).2 hn) (fun k => by rw [hstream]; split <;> exact hreports k) (by rw [hstream, if_pos hn]; exact h)
  refine Eq.trans hdisarmed ?_
  rw [hstream, if_pos hn]
  rfl

/-- The reads of a stream that STOP NOW stops (R66). -/
theorem State.stopEnded_marks (hs : entriesConsistent s.schedule.entries) (hreports : ∀ n, (s.stream n).reportConsistent = true)
    {n : StreamNo} (hn : p.streams.getLsbD n.val = true) (h : (s.stream n).state ≠ .armed) :
    ∃ v, ((s.stream n).direction = .output → v.AllMarked n)
      ∧ (∀ e r, s.transfer e = some r → v.transfer e = some r ∨ v.transfer e = some { r with discard := true })
      ∧ State.MarksReads (fun _ => True) v (s.stopEnded p result stopped) := by
  have hstream := s.stopUnnamed_stream p result stopped hs
  obtain ⟨v, hmarked, hbefore, hafter⟩ := State.foldl_stopStream_marks (s := s.stopUnnamed p result stopped) (s.stopOrder_nodup p)
    ((s.mem_stopOrder p n).2 hn) (fun k => by rw [hstream]; split <;> exact hreports k) (by rw [hstream, if_pos hn]; exact h)
  refine ⟨v, fun hd => hmarked (by rw [hstream, if_pos hn]; exact hd), fun e r hr => ?_, hafter⟩
  have hunnamed := s.stopUnnamed_beyond p result stopped (halted := fun _ => False) fun n (_ : p.streams.getLsbD n.val = true) => trivial
  rcases hunnamed.transfers e r hr with hr | ⟨-, m, hm, -⟩
  · exact hbefore e r hr
  · exact hm.elim

end

end Sys2Proof.Machine

open Sys2Proof Sys2Proof.Machine

/-- Settles O27: the removals, the stops of the streams one by one, and the wait sets they leave. -/
theorem stopNowStops : Obligations.StopNowStops := by
  intro s e seq index p h hrefusal hcode hreports hconsistent named isStopped stopped disarmed result answer emptied
  rw [State.scheduleConsistent_iff] at hconsistent
  have hexec : exec (.stopNow e seq p) s
      = .next ((s.taken e (.stopNow e seq p) seq index).stopEnded p result stopped).examineCommand.finish := by
    rw [exec_stop (.inl rfl), State.takeCommand_eq s e _ seq index _ h, State.stop_eq,
      show (s.taken e (.stopNow e seq p) seq index).stopRefusal p = s.stopRefusal p from rfl, hrefusal]
    have hstops : (s.taken e (.stopNow e seq p) seq index).stops p
        = ((s.taken e (.stopNow e seq p) seq index).stopEnded p result stopped).examineCommand := by
      rw [State.stops, if_pos hcode, State.stopNamed_eq]
      rfl
    exact congrArg (fun u : State => Host.Outcome.next u.finish) hstops
  have htaken : s.SameBut (some e) (s.taken e (.stopNow e seq p) seq index) := .taken ..
  have hprogress : (s.taken e (.stopNow e seq p) seq index).command.inProgress
      = some ⟨.stopNow e seq p, index, seq, [], .nobody⟩ := rfl
  have hstreams (n : StreamNo) : (s.taken e (.stopNow e seq p) seq index).stream n = s.stream n := rfl
  have hentries : (s.taken e (.stopNow e seq p) seq index).schedule.entries = s.schedule.entries := rfl
  have hagrees : s.agreesInControl (s.taken e (.stopNow e seq p) seq index)
      ∧ (s.taken e (.stopNow e seq p) seq index).timebase = s.timebase := ⟨⟨rfl, rfl, rfl, rfl, rfl, rfl, rfl, rfl, rfl⟩, rfl⟩
  generalize s.taken e (.stopNow e seq p) seq index = v at hexec htaken hprogress hstreams hentries hagrees
  have hconsistent' : entriesConsistent v.schedule.entries := hentries ▸ hconsistent
  have hreports' (n : StreamNo) : (v.stream n).reportConsistent = true := by
    rw [hstreams]
    exact hreports n
  have hstopped {n : StreamNo} (hn : isStopped n = true) : named n = true ∧ (s.stream n).state ≠ .armed := by
    simpa [isStopped] using hn
  have hunnamed := v.stopUnnamed_stream p result stopped hconsistent'
  have hleaves {n : StreamNo} (hn : isStopped n = true) : (v.stopUnnamed p result stopped).StopLeaves n
      (v.stopEnded p result stopped) := by
    obtain ⟨hnamed, harmed⟩ := hstopped hn
    exact v.stopEnded_stopped p result stopped hconsistent' hreports' hnamed (by rw [hstreams]; exact harmed)
  have hset (n : StreamNo) : stopped.getLsbD n.val = true ↔ p.streams.getLsbD n.val = true ∧ (v.stream n).state ≠ .armed := by
    rw [hstreams, mem_setOf, List.mem_filter]
    exact (and_iff_right (mem_configStreams n)).trans (by simp [isStopped, named])
  have hisStopped (n : StreamNo) : isStopped n = true ↔ p.streams.getLsbD n.val = true ∧ (v.stream n).state ≠ .armed := by
    rw [hstreams]
    simp [isStopped, named]
  have hdisarms {n : StreamNo} (hn : named n = true) (harmed : (s.stream n).state = .armed) :
      (v.stopEnded p result stopped).stream n = { s.stream n with state := .idle, scheduleEntry := none, drainAnswered := false } := by
    rw [← hstreams n] at harmed ⊢
    exact v.stopEnded_disarmed p result stopped hconsistent' hreports' hn harmed
  have hmarks {n : StreamNo} (hn : isStopped n = true) := v.stopEnded_marks p result stopped hconsistent' hreports'
    ((hisStopped n).1 hn).1 ((hisStopped n).1 hn).2
  have hwait := v.stopEnded_waits p result stopped hconsistent' hreports' hset
  obtain ⟨hcommand, hwaits, honly⟩ := v.stopEnded_command p result stopped hconsistent' hreports'
  obtain ⟨hcontrol, htimebase⟩ := v.stopEnded_control p result stopped
  have hbeyond := v.stopEnded_beyond p result stopped hconsistent'
  have hemptied (x : ScheduleEntry) : emptied x ↔ x.Live ∧ v.leftOf x (v.stopOrder p) = 0 := by
    rw [State.leftOf_eq_zero_iff]
    simp only [State.mem_stopOrder, hstreams]
    exact (and_assoc).symm
  rw [hentries] at hwaits honly
  rw [hprogress, Option.map_some] at hcommand
  simp only [← hemptied] at hwaits honly
  simp only [← hisStopped] at hwait
  generalize v.stopEnded p result stopped = w at hexec hleaves hdisarms hmarks hwait hcommand hwaits honly hcontrol htimebase hbeyond
  have hexamined := w.examineCommand_apart noStream
  have hstream (n : StreamNo) : w.examineCommand.stream n = w.stream n := hexamined.beyond.stream n id
  have hends {n : StreamNo} (hn : isStopped n = true) : (w.stream n).state = .stopping ∨ (w.stream n).state = .idle :=
    (hleaves hn).ends.imp (fun k => k.2.1) And.left
  refine ⟨_, hexec, fun n hn harmed => ?_, fun n hn => ⟨?_, ?_, ?_, ?_, ?_⟩, ?_, ?_, ?_, ?_⟩
  · rw [← hdisarms hn harmed, ← hstream]
    exact w.examineCommand.finish_grantsTo.2.2.1 n
  · have hbegun := hunnamed n
    rw [if_pos (show p.streams.getLsbD n.val = true from (hstopped hn).1), hstreams] at hbegun
    rcases (hleaves hn).ends with ⟨hsettles, hstopping, -⟩ | ⟨hidle, -⟩
    · left
      rw [hbegun] at hsettles
      obtain ⟨-, -, hdestination, horigin, -⟩ := hsettles.of_stopping (by rw [Stream.stoppingWith_body]) hstopping
      obtain ⟨b, hb⟩ := State.finish_halted (s := w.examineCommand) (n := n) (by rw [hstream]; simp [Stream.isTaking, hstopping])
      rw [hb, hstream]
      refine ⟨hstopping, hdestination.trans ?_, horigin.trans ?_, fun hd => ?_, fun hd => ?_⟩
      · rw [Stream.stoppingWith_body]
      · rw [Stream.stoppingWith_body]
      · rw [hsettles.body, Stream.stoppingWith_body]
        exact Stream.emptied_output (c := { s.stream n with scheduleEntry := none }) hd
      · rw [hsettles.body, Stream.stoppingWith_body]
        exact Stream.emptied_capture (c := { s.stream n with scheduleEntry := none }) hd
    · right
      rw [State.finish_body, hstream]
      exact hidle
  · obtain ⟨u, hmarked, hbefore, hafter⟩ := hmarks hn
    exact State.readsDiscarded_of (v := u) (halted := fun _ => True)
      (fun e' r hne hr => hbefore e' r (htaken.transfers e' r hne hr)) (fun hd => hmarked (by rw [hstreams]; exact hd))
      (hafter.trans (w.examineCommand_apart fun _ => True).beyond.transfers)
  · have hrun := (hleaves hn).run
    rw [hunnamed, if_pos (show p.streams.getLsbD n.val = true from (hstopped hn).1), hstreams] at hrun
    rw [State.finish_body, hstream]
    exact hrun
  · rw [State.finish_body, hstream]
    exact (hleaves hn).entry
  · rw [State.finish_body, hstream]
    exact (hleaves hn).limit
  · have hstate (n : StreamNo) : (w.examineCommand.finish.stream n).state = (w.stream n).state := by
      rw [State.finish_body, hstream]
    simp only [hstate, State.finish_schedule, w.examineCommand_schedule]
    by_cases hsets : w.command.streamWait ≠ 0 ∨ w.command.entryWait ≠ []
    · obtain ⟨-, hinProgress, -, hstreamWait, hentryWait⟩ := w.finish_command
      rw [State.examineCommand_waits hsets, hinProgress, hstreamWait, hentryWait]
      exact .inl ⟨State.finish_completing (by rw [hcommand]), by rw [hcommand], hsets, hwait, hwaits, honly⟩
    · push Not at hsets
      obtain ⟨hnoStream, hnoEntry⟩ := hsets
      obtain ⟨hphase, hanswer⟩ := State.examineCommand_answers (s := w) (q := ⟨.stopNow e seq p, index, seq, result, .nobody⟩)
        (by rw [hcommand]) hnoStream hnoEntry (by rw [hcommand])
      refine .inr ⟨hphase, hanswer, fun n hn => (hends hn).resolve_left fun hstopping => ?_, fun x hx hempty y hy hid => ?_⟩
      · have hbit := (hwait n).2 ⟨hn, hstopping⟩
        rw [hnoStream] at hbit
        simp at hbit
      · have hmem := (hwaits x hx hempty).2 ⟨y, hy, hid⟩
        rw [hnoEntry] at hmem
        cases hmem
  · exact ((hagrees.1.trans hcontrol).trans (State.Touches.control w.examineCommand_touches)).trans (State.finish_control _)
  · exact (State.finish_timebase _).trans (hexamined.timebase.trans (htimebase.trans hagrees.2))
  · have hfinal := hexamined.beyond.widen (touched' := fun n => p.streams.getLsbD n.val = true)
      (halted' := fun n => p.streams.getLsbD n.val = true ∧ (v.stream n).state ≠ .armed) (fun _ k => k.elim) fun _ k => k.elim
    exact ((hbeyond.trans hfinal).widen (fun _ k => k) fun m hm => (hisStopped m).2 hm).finish htaken

end

section
/-! The answers that a firing entry collects in a tick (R100 to R103). -/

namespace Sys2Proof.Machine

variable {s t : State} {n : StreamNo}

/-! ### An answer on every entry of the table -/

/-- The entry with the stream's answer. -/
def ScheduleEntry.answeredBy (x : ScheduleEntry) (n : StreamNo) : ScheduleEntry := { x with answered := x.answered ||| streamBit n }

/-- The stream may answer that entry. -/
def ScheduleEntry.Awaiting (x : ScheduleEntry) (id : EntryId) (n : StreamNo) : Prop :=
  x.id = id ∧ x.state = .firing ∧ x.streams.getLsbD n.val = true

/-- Entry `y` is `x` after the stream's answer to the entry with that id. -/
def ScheduleEntry.Answers (id : EntryId) (n : StreamNo) (x y : ScheduleEntry) : Prop :=
  x.Examines (x.Awaiting id n) (x.answeredBy n) y

theorem sameCalls_answers (id : EntryId) (n : StreamNo) : SameCalls (ScheduleEntry.Answers id n) :=
  sameCalls_examines (c := fun x => x.Awaiting id n) (f := fun x => x.answeredBy n) fun _ => ⟨rfl, rfl, rfl, rfl, rfl, rfl⟩

theorem State.answerEntry_leads (h : entriesConsistent s.schedule.entries) (id : EntryId) (n : StreamNo) :
    State.Leads (ScheduleEntry.Answers id n) s (s.answerEntry id n) := by
  by_cases hnone : ∀ x ∈ s.schedule.entries, ¬x.Awaiting id n
  · have hignored : s.answerEntry id n = s := by
      unfold State.answerEntry
      split
      · rfl
      · rename_i x hx
        exact if_neg fun k => hnone x (State.entry?_mem hx) ⟨State.entry?_id hx, by simpa using k⟩
    rw [hignored]
    exact State.leads_of_same h fun x hx => .inl ⟨hnone x hx, rfl⟩
  · push Not at hnone
    obtain ⟨e, he, rfl, hfires, hnamed⟩ := hnone
    have hanswers : s.answerEntry e.id n = (s.modifyEntry e.id (fun x => x.answeredBy n)).examineEntry e.id := by
      unfold State.answerEntry
      rw [State.entry?_of_mem h he]
      exact if_pos (by simp [hfires, hnamed])
    rw [hanswers]
    refine (State.examined_leads (f := fun x => x.answeredBy n) (fun _ => ⟨rfl, rfl, rfl, rfl, rfl, rfl⟩) h he
      ((h.2 e he).firing hfires) (ScheduleUnit.Moves.consistent (.answers e.id n e (State.entry?_of_mem h he) hfires) h)).imp
      fun x hx y hxy => ?_
    have hconcerned : x.Awaiting e.id n ↔ x.id = e.id := by
      refine ⟨And.left, fun hid => ⟨hid, ?_⟩⟩
      obtain rfl : x = e := List.inj_on_of_nodup_map h.1 hx he hid
      exact ⟨hfires, hnamed⟩
    rw [ScheduleEntry.Answers, propext hconcerned]
    exact hxy

/-! ### The entry that fires, until the stream has answered and after -/

/-- The event that closes the entry once the streams of a set have answered it (R102, R103). -/
def ScheduleEntry.doneEvent (x : ScheduleEntry) (set : StreamSet) : Event :=
  match x.kind with
  | .start => .startDone x.id x.generator set (x.firePosition.getD 0) x.late
  | .stop => .entryStopDone x.id x.generator set x.condition.stopReason (x.firePosition.getD 0 - 1) x.late

theorem ScheduleEntry.outcome_of_answered {x : ScheduleEntry} (h : x.answered ≠ 0) :
    x.outcome = (.firedUnreported, x.doneEvent x.answered) := by
  unfold ScheduleEntry.outcome ScheduleEntry.doneEvent
  rw [if_neg (by simpa using h)]
  cases x.kind <;> rfl

theorem ScheduleEntry.SameCall.doneEvent {x y : ScheduleEntry} (h : x.SameCall y) (set : StreamSet) : y.doneEvent set = x.doneEvent set := by
  obtain ⟨hid, hkind, hgenerator, hcondition, hfire, hlate⟩ := h
  unfold ScheduleEntry.doneEvent
  rw [hid, hkind, hgenerator, hcondition, hfire, hlate]

/-- Entry `x` fires, and the stream has yet to answer it. -/
structure State.Undecided (x : ScheduleEntry) (n : StreamNo) (s : State) : Prop where
  consistent : entriesConsistent s.schedule.entries
  fires : ∃ y ∈ s.schedule.entries, x.SameCall y ∧ y.state = .firing ∧ y.streams.getLsbD n.val = true
    ∧ y.answered.getLsbD n.val = false

/-- The stream has answered entry `x`, which stands answered or has its closing event placed. -/
structure State.Answered (x : ScheduleEntry) (n : StreamNo) (s : State) : Prop where
  consistent : entriesConsistent s.schedule.entries
  answered : (∃ y ∈ s.schedule.entries, x.SameCall y ∧ y.answered.getLsbD n.val = true
      ∧ (y.state = .firing ∨ ∃ set : StreamSet, set.getLsbD n.val = true ∧ y.closing = some (x.doneEvent set)))
    ∨ (∀ y ∈ s.schedule.entries, y.id ≠ x.id) ∧ ∃ set : StreamSet, set.getLsbD n.val = true ∧ x.doneEvent set ∈ s.heldEvents

theorem getLsbD_with (set : StreamSet) (n m : StreamNo) :
    (set ||| streamBit n).getLsbD m.val = true ↔ set.getLsbD m.val = true ∨ m = n := by
  rw [BitVec.getLsbD_or, getLsbD_streamBit, Bool.or_eq_true, decide_eq_true_eq]

/-- While the stream of its set has not answered, a firing entry is not exhausted. -/
theorem ScheduleEntry.not_exhausted {x : ScheduleEntry} (hfires : x.state = .firing) (hnamed : x.streams.getLsbD n.val = true)
    (hanswered : x.answered.getLsbD n.val = false) : ¬x.Exhausted := by
  rintro (⟨-, hleft⟩ | ⟨hwaits, -⟩)
  · have hbit := congrArg (fun b : StreamSet => b.getLsbD n.val) hleft
    rw [BitVec.getLsbD_and, BitVec.getLsbD_not, hnamed, hanswered] at hbit
    simp [show n.val < 8 from n.isLt] at hbit
  · rw [hfires] at hwaits
    cases hwaits

variable {x : ScheduleEntry} {id : EntryId} {m : StreamNo}

/-- Another stream's answer leaves the entry waiting for this one. -/
theorem State.Undecided.answerEntry (h : s.Undecided x n) (hne : m ≠ n) (id : EntryId) : (s.answerEntry id m).Undecided x n := by
  obtain ⟨hconsistent, y, hy, hcall, hfires, hnamed, hopen⟩ := h
  have hleads := State.answerEntry_leads hconsistent id m
  have hstays : (y.answeredBy m).answered.getLsbD n.val = false := by
    rw [Bool.eq_false_iff, ne_eq, ScheduleEntry.answeredBy, getLsbD_with, hopen]
    exact fun k => k.elim nofun fun k => hne k.symm
  have hafter (z : ScheduleEntry) (hz : y.Answers id m z) :
      z.state = .firing ∧ z.streams.getLsbD n.val = true ∧ z.answered.getLsbD n.val = false ∧ z.closing = none := by
    have hnone := (hconsistent.2 y hy).firing hfires
    rcases hz with ⟨-, hz⟩ | ⟨-, -, hz⟩ | ⟨-, hexhausted, -⟩
    · rw [hz]
      exact ⟨hfires, hnamed, hopen, hnone⟩
    · rw [hz]
      exact ⟨hfires, hnamed, hstays, hnone⟩
    · exact absurd hexhausted (ScheduleEntry.not_exhausted (x := y.answeredBy m) hfires hnamed hstays)
  refine ⟨hleads.consistent, ?_⟩
  rcases hleads.fates y hy with ⟨z, hz, hyz⟩ | ⟨-, z, hyz, ev, hev, -⟩
  · obtain ⟨hstate, hset, hanswered, -⟩ := hafter z hyz
    exact ⟨z, hz, hcall.trans (sameCalls_answers _ _ _ _ hyz), hstate, hset, hanswered⟩
  · rw [(hafter z hyz).2.2.2] at hev
    cases hev

/-- An answer to a firing entry that this stream has answered by then. -/
theorem State.answered_of_leads {y : ScheduleEntry} (hconsistent : entriesConsistent s.schedule.entries)
    (hy : y ∈ s.schedule.entries) (hcall : x.SameCall y)
    (hstands : ∀ z, y.Answers id m z → z.answered.getLsbD n.val = true
      ∧ (z.state = .firing ∧ z.closing = none ∨ ∃ set : StreamSet, set.getLsbD n.val = true ∧ z.closing = some (x.doneEvent set))) :
    (s.answerEntry id m).Answered x n := by
  have hleads := State.answerEntry_leads hconsistent id m
  refine ⟨hleads.consistent, ?_⟩
  rcases hleads.fates y hy with ⟨z, hz, hyz⟩ | ⟨hgone, z, hyz, ev, hev, hheld⟩
  · obtain ⟨hanswered, hdone⟩ := hstands z hyz
    exact .inl ⟨z, hz, hcall.trans (sameCalls_answers _ _ _ _ hyz), hanswered, hdone.imp_left And.left⟩
  · obtain ⟨-, ⟨-, hnone⟩ | ⟨set, hset, hclosing⟩⟩ := hstands z hyz
    · rw [hnone] at hev
      cases hev
    · rw [hclosing] at hev
      cases hev
      exact .inr ⟨fun w hw => hcall.1 ▸ hgone w hw, set, hset, hheld⟩

/-- The outcome of an entry that the stream has answered. -/
theorem ScheduleEntry.SameCall.outcome {y : ScheduleEntry} (hcall : x.SameCall y) (hanswered : y.answered.getLsbD n.val = true) :
    y.outcome.2 = x.doneEvent y.answered := by
  rw [ScheduleEntry.outcome_of_answered fun hnone => by rw [hnone] at hanswered; simp at hanswered]
  exact hcall.doneEvent _

/-- The stream answers the entry that waits for it (R100, R101). -/
theorem State.Undecided.answered (h : s.Undecided x n) : (s.answerEntry x.id n).Answered x n := by
  obtain ⟨hconsistent, y, hy, hcall, hfires, hnamed, -⟩ := h
  refine State.answered_of_leads hconsistent hy hcall fun z hz => ?_
  have hanswered : (y.answeredBy n).answered.getLsbD n.val = true := (getLsbD_with _ _ _).2 (.inr rfl)
  rcases hz with ⟨hno, -⟩ | ⟨-, -, hz⟩ | ⟨-, -, hz⟩
  · exact absurd ⟨hcall.1, hfires, hnamed⟩ hno
  · rw [hz]
    exact ⟨hanswered, .inl ⟨hfires, (hconsistent.2 y hy).firing hfires⟩⟩
  · rw [hz]
    exact ⟨hanswered, .inr ⟨_, hanswered, congrArg some (ScheduleEntry.SameCall.outcome (y := y.answeredBy n)
      (hcall.trans ⟨rfl, rfl, rfl, rfl, rfl, rfl⟩) hanswered)⟩⟩

/-- Once the stream has answered, every later answer leaves it so. -/
theorem State.Answered.answerEntry (h : s.Answered x n) (id : EntryId) (m : StreamNo) : (s.answerEntry id m).Answered x n := by
  obtain ⟨hconsistent, ⟨y, hy, hcall, hanswered, hdone⟩ | ⟨hgone, set, hset, hheld⟩⟩ := h
  · refine State.answered_of_leads hconsistent hy hcall fun z hz => ?_
    have hstays : (y.answeredBy m).answered.getLsbD n.val = true := (getLsbD_with _ _ _).2 (.inl hanswered)
    rcases hz with ⟨-, hz⟩ | ⟨⟨-, hfires, -⟩, -, hz⟩ | ⟨-, -, hz⟩
    · rw [hz]
      exact ⟨hanswered, hdone.imp_left fun k => ⟨k, (hconsistent.2 y hy).firing k⟩⟩
    · rw [hz]
      exact ⟨hstays, .inl ⟨hfires, (hconsistent.2 y hy).firing hfires⟩⟩
    · rw [hz]
      exact ⟨hstays, .inr ⟨_, hstays, congrArg some (ScheduleEntry.SameCall.outcome (y := y.answeredBy m)
        (hcall.trans ⟨rfl, rfl, rfl, rfl, rfl, rfl⟩) hstays)⟩⟩
  · have hleads := State.answerEntry_leads hconsistent id m
    refine ⟨hleads.consistent, .inr ⟨fun z hz hid => ?_, set, hset, hleads.held.subset hheld⟩⟩
    obtain ⟨y, hy, hyz⟩ := hleads.entries z hz
    exact hgone y hy (hyz.1.symm.trans hid)

/-! ### What the rest of a tick leaves of the entries -/

/-- The entries are those of before, and no held event has gone. -/
structure State.SameEntries (s t : State) : Prop where
  entries : t.schedule.entries = s.schedule.entries
  held : s.heldEvents <+: t.heldEvents

theorem State.SameEntries.refl (s : State) : State.SameEntries s s := ⟨rfl, List.prefix_rfl⟩

theorem State.SameEntries.trans {u : State} (h : State.SameEntries s t) (k : State.SameEntries t u) : State.SameEntries s u :=
  ⟨k.entries.trans h.entries, h.held.trans k.held⟩

theorem State.SameEntries.undecided (h : State.SameEntries s t) (k : s.Undecided x n) : t.Undecided x n := by
  obtain ⟨hconsistent, hfires⟩ := k
  rw [← h.entries] at hconsistent hfires
  exact ⟨hconsistent, hfires⟩

theorem State.SameEntries.answered (h : State.SameEntries s t) (k : s.Answered x n) : t.Answered x n := by
  obtain ⟨hconsistent, hanswered⟩ := k
  rw [← h.entries] at hconsistent hanswered
  exact ⟨hconsistent, hanswered.imp_right fun ⟨hgone, set, hset, hheld⟩ => ⟨hgone, set, hset, h.held.subset hheld⟩⟩

theorem State.SameEntries.accept (s : State) (e : Event) : State.SameEntries s (s.accept e) :=
  ⟨rfl, ⟨[e], (s.accept_heldEvents e).symm⟩⟩

theorem State.SameEntries.noticed (s : State) (n : StreamNo) (e : Event) (d : Stream) :
    State.SameEntries s ((s.accept e).putStream n d) := (State.SameEntries.accept s e).trans ⟨rfl, List.prefix_rfl⟩

theorem State.SameEntries.examineCommand (s : State) : State.SameEntries s s.examineCommand := by
  obtain ⟨hschedule, hheld⟩ := s.examineCommand_schedule_held
  exact ⟨by rw [hschedule], hheld⟩

theorem State.SameEntries.handRemoval (s : State) (n : StreamNo) (r : ClearReason) : State.SameEntries s (s.handRemoval n r) := by
  refine ⟨?_, ?_⟩
  · rw [State.handRemoval_frame]
  · rw [State.handRemoval_heldEvents]

theorem State.SameEntries.produce (s : State) (n : StreamNo) (c : Stream) (e : Event) (drainRun : Bool) :
    State.SameEntries s ((s.putStream n c).produce n e drainRun) := by
  obtain ⟨-, hheld, hschedule, -⟩ := State.produce_leaves s n c e drainRun
  exact ⟨by rw [hschedule], ⟨_, hheld.symm⟩⟩

/-- A stream outside STOPPING and CLOSED stays outside them as it reports. -/
theorem open_keptByReports (n : StreamNo) : State.KeptByReports n (fun t => (t.stream n).isOpen) where
  accept := fun _ _ h _ => h
  stream := fun s d h hd => by
    rw [State.stream_putStream]
    exact hd.isOpen h
  close := fun s h hends _ => by
    simp only [State.stoppingEnds, Bool.and_eq_true, beq_iff_eq] at hends
    exact absurd hends.1.1 h.1
  quiet := fun _ h hclosed => absurd hclosed h.2
  arrived := fun _ h => h
  hand := fun s r h _ => by
    rw [State.handRemoval_frame]
    exact h
  answer := fun s id h _ => by
    have hstream := (s.answerEntry_touches id n).stream n fun k => k
    rw [hstream]
    exact h

/-- An examination of a stream that is not in STOPPING answers no entry. -/
theorem State.SameEntries.settle (h : (s.stream n).isOpen) : State.SameEntries s (s.settle n) := by
  refine (State.settle_keeps (P := fun t => (t.stream n).isOpen ∧ State.SameEntries s t) (fun t u ht hu => ?_) ⟨h, .refl s⟩).2
  obtain ⟨hopen, hsame⟩ := ht
  refine ⟨(open_keptByReports n).settleStep hopen hu, hsame.trans ?_⟩
  refine State.settleStep_cases (P := State.SameEntries t) hu (fun cause p _ => .produce ..) (fun r st _ => ?_)
    (fun o _ => .produce ..) (fun _ _ => ⟨rfl, List.prefix_rfl⟩) (fun _ hends => ?_)
  · rw [State.retireHead_eq]
    refine State.SameEntries.trans ?_ (.produce ..)
    split
    · exact .handRemoval ..
    · exact .refl t
  · simp only [State.stoppingEnds, Bool.and_eq_true, beq_iff_eq] at hends
    exact absurd hends.1.1 hopen.1

theorem State.SameEntries.fault (s : State) (n : StreamNo) (cause : FaultCause) (p : Position) :
    State.SameEntries s (s.fault n cause p) := by
  have hfaulted : State.SameEntries s (s.enterFaulted n cause p) := by
    rw [State.enterFaulted_frame]
    exact ⟨rfl, List.prefix_rfl⟩
  refine hfaulted.trans (.settle ?_)
  rw [State.enterFaulted_frame, State.stream_putStream]
  exact ⟨nofun, nofun⟩

theorem State.SameEntries.starvedTick (s : State) (n : StreamNo) (p : Position) : State.SameEntries s (s.starvedTick n p) := by
  have hcounted : State.SameEntries s (s.modifyStream n Stream.countStarved) := ⟨rfl, List.prefix_rfl⟩
  unfold State.starvedTick
  dsimp only
  split
  · exact hcounted.trans (.fault ..)
  · split
    · have hnoticed : State.SameEntries (s.modifyStream n Stream.countStarved)
          ((s.modifyStream n Stream.countStarved).offerStarveBegin n p) := by
        unfold State.offerStarveBegin
        dsimp only
        split
        · exact .noticed ..
        · exact ⟨rfl, List.prefix_rfl⟩
      exact hcounted.trans (hnoticed.trans ⟨rfl, List.prefix_rfl⟩)
    · exact ⟨rfl, List.prefix_rfl⟩

theorem State.SameEntries.endStarveRun (s : State) (n : StreamNo) (p : Position) : State.SameEntries s (s.endStarveRun n p) := by
  unfold State.endStarveRun
  dsimp only
  split
  · have hnoticed : State.SameEntries s (s.offerStarveEnd n p (s.stream n).starveRun) := by
      unfold State.offerStarveEnd
      dsimp only
      split
      · exact .noticed ..
      · exact ⟨rfl, List.prefix_rfl⟩
    exact hnoticed.trans ⟨rfl, List.prefix_rfl⟩
  · exact ⟨rfl, List.prefix_rfl⟩

theorem State.SameEntries.markFirst (s : State) (n : StreamNo) (r : StagedRecord) (first : Bool) (p : Position) :
    State.SameEntries s (s.markFirst n r first p) := by
  unfold State.markFirst
  split
  · unfold State.offerMark
    dsimp only
    split
    · exact .noticed ..
    · exact ⟨rfl, List.prefix_rfl⟩
  · exact .refl s

/-- What the tick of a run does: a frame passes, a frame is assigned, or the tick is starved (R57 to R60). -/
theorem State.runTick_cases (s : State) (n : StreamNo) (p : Position) (bits : List Bool) :
    (∃ place rest, s.runTick n p bits = s.passFrame n p place rest)
      ∨ (∃ r frame, s.runTick n p bits = (s.openPeriod n []).assignFrame n p r frame)
      ∨ ∃ frame, s.runTick n p bits = (s.openPeriod n frame).starvedTick n p := by
  unfold State.runTick State.outputTick State.captureTick
  dsimp only
  split
  · split
    · split
      · exact .inl ⟨_, _, rfl⟩
      · exact .inr (.inr ⟨_, rfl⟩)
    · exact .inr (.inr ⟨_, rfl⟩)
  · split
    · exact .inr (.inr ⟨_, rfl⟩)
    · split
      · exact .inr (.inl ⟨_, _, rfl⟩)
      · exact .inr (.inr ⟨_, rfl⟩)

/-- The tick of a run answers no entry. -/
theorem State.SameEntries.runTick (s : State) (n : StreamNo) (p : Position) (bits : List Bool) :
    State.SameEntries s (s.runTick n p bits) := by
  have hput {t u : State} (h : State.SameEntries t u) (entries : t.schedule = s.schedule) (held : t.events = s.events) :
      State.SameEntries s u := by
    refine State.SameEntries.trans (t := t) ⟨by rw [entries], ?_⟩ h
    rw [State.heldEvents, State.heldEvents, held]
  rcases s.runTick_cases n p bits with ⟨place, rest, h⟩ | ⟨r, frame, h⟩ | ⟨frame, h⟩ <;> rw [h]
  · unfold State.passFrame
    dsimp only
    split
    · exact hput ((State.SameEntries.markFirst ..).trans (.endStarveRun ..)) rfl rfl
    · exact hput (.endStarveRun ..) rfl rfl
  · unfold State.assignFrame
    exact hput ((State.SameEntries.markFirst ..).trans (.endStarveRun ..)) rfl rfl
  · exact hput (.starvedTick ..) rfl rfl

/-! ### The tick of a stream that an entry takes -/

/-- A stream in a run that a firing STOP entry takes (R101). -/
theorem State.tickStream_stops {p : Position} {bits : List Bool} {e : ScheduleEntry} (hr : (s.stream n).isRunning = true)
    (hfires : (s.firingEntry n p).filter (fun e => e.kind == .stop && (s.stream n).state != .draining) = some e) :
    s.tickStream bits p n = ((s.idlePeriod n).enterStopping n .idle (some .entry) (some e.id)).settleStream n := by
  unfold State.tickStream
  dsimp only
  rw [hfires]
  rcases Stream.running_states hr with h | h | h <;> rw [h]

/-- An ARMED stream that a firing START entry takes (R100). -/
theorem State.tickStream_starts {p : Position} {bits : List Bool} {e : ScheduleEntry} (h : (s.stream n).state = .armed)
    (hfires : (s.firingEntry n p).filter (fun e => e.kind == .start) = some e) : s.tickStream bits p n =
      ((((s.modifyStream n (fun c => c.beginRun p)).runTick n p bits).settle n).answerEntry e.id n).examineCommand := by
  obtain ⟨hfires, hkind⟩ := Option.filter_eq_some_iff.1 hfires
  unfold State.tickStream
  dsimp only
  rw [h, hfires]
  exact if_pos hkind

/-- The states in which a tick finds a stream outside a run, with no entry to start it. -/
theorem Stream.resting_states {c : Stream} {fires : Prop} (hrunning : ¬c.isRunning = true) (hclosed : c.state ≠ .closed)
    (h : c.state ≠ .armed ∨ fires) : c.state = .idle ∨ c.state = .stopping ∨ c.state = .faulted ∨ c.state = .armed ∧ fires := by
  cases hs : c.state <;> simp_all [Stream.isRunning]

/-! ### The ticks of other streams -/

/-- What keeps `P` through the answers of stream `m` and whatever leaves the entries alone. -/
structure State.KeptByAnswers (m : StreamNo) (P : State → Prop) : Prop where
  same : ∀ s t, State.SameEntries s t → P s → P t
  answer : ∀ s id, P s → P (s.answerEntry id m)

namespace State.KeptByAnswers

variable {P : State → Prop}

theorem reports (K : State.KeptByAnswers m P) : State.KeptByReports m P where
  accept := fun s e h _ => K.same _ _ (.accept s e) h
  stream := fun s _ h _ => K.same s _ ⟨rfl, List.prefix_rfl⟩ h
  close := fun s h _ _ => K.same s _ ⟨rfl, List.prefix_rfl⟩ h
  quiet := fun s h _ => K.same s _ ⟨rfl, List.prefix_rfl⟩ h
  arrived := fun s h => K.same s _ ⟨rfl, List.prefix_rfl⟩ h
  hand := fun s r h _ => K.same _ _ (.handRemoval s m r) h
  answer := fun s id h _ => K.answer s id h

theorem settleStream (K : State.KeptByAnswers m P) (h : P s) : P (s.settleStream m) :=
  K.same _ _ (.examineCommand _) (K.reports.settle h)

theorem tickStream (K : State.KeptByAnswers m P) (bits : List Bool) (p : Position) (h : P s) : P (s.tickStream bits p m) := by
  have hidle : P (s.idlePeriod m) := K.same s _ ⟨rfl, List.prefix_rfl⟩ h
  by_cases hrunning : (s.stream m).isRunning = true
  · cases hfires : (s.firingEntry m p).filter (fun e => e.kind == .stop && (s.stream m).state != .draining) with
    | some e =>
      rw [State.tickStream_stops hrunning hfires]
      have hstopping : P ((s.idlePeriod m).enterStopping m .idle (some .entry) (some e.id)) := by
        refine K.same _ _ ?_ hidle
        rw [State.enterStopping_frame]
        exact ⟨rfl, List.prefix_rfl⟩
      exact K.settleStream hstopping
    | none =>
      rw [State.tickStream_running hrunning hfires]
      split
      · exact K.same s _ ⟨rfl, List.prefix_rfl⟩ h
      · exact K.settleStream (K.same _ _ (.runTick ..) h)
  · by_cases hclosed : (s.stream m).state = .closed
    · rw [State.tickStream_closed hclosed]
      exact h
    · cases hfires : (s.firingEntry m p).filter (fun e => e.kind == .start) with
      | some e =>
        by_cases harmed : (s.stream m).state = .armed
        · rw [State.tickStream_starts harmed hfires]
          have hbegun : P (s.modifyStream m (fun c => c.beginRun p)) := K.same s _ ⟨rfl, List.prefix_rfl⟩ h
          exact K.same _ _ (.examineCommand _) (K.answer _ _ (K.reports.settle (K.same _ _ (.runTick ..) hbegun)))
        · rw [State.tickStream_idle (Stream.resting_states hrunning hclosed (.inl harmed))]
          exact hidle
      | none =>
        rw [State.tickStream_idle (Stream.resting_states hrunning hclosed (.inr hfires))]
        exact hidle

end State.KeptByAnswers

end Sys2Proof.Machine
end

section
/-! The entries that fire at a tick, START and STOP (R99 to R103). -/

namespace Sys2Proof.Machine

variable {s t v : State} {n : StreamNo} {g : GenNo} {x : ScheduleEntry}

/-! ### The entry as its stream meets it -/

theorem mem_fireEntries {p : Position} {l : List ScheduleEntry} (older : List EntryId) (hx : x ∈ l)
    (hfires : (x.generator == g && x.state == .waiting && x.firePosition.any (fun f => f.toNat ≤ p.toNat)) = true) :
    ∃ behind, { x with state := .firing, behind := behind } ∈ fireEntries g p older l := by
  induction l generalizing older with
  | nil => cases hx
  | cons e l ih =>
    unfold fireEntries
    rcases List.mem_cons.1 hx with rfl | hx
    · rw [if_pos hfires]
      exact ⟨older, List.mem_cons_self⟩
    · split
      · obtain ⟨behind, hmem⟩ := ih (older ++ [e.id]) hx
        exact ⟨behind, List.mem_cons_of_mem _ hmem⟩
      · obtain ⟨behind, hmem⟩ := ih older hx
        exact ⟨behind, List.mem_cons_of_mem _ hmem⟩

/-- As the tick begins, the entry fires and none of its streams has answered (R99). -/
theorem State.ticked_undecided (h : entriesConsistent s.schedule.entries) (hx : x ∈ s.schedule.entries) (hg : x.generator = g)
    (hwaits : x.state = .waiting) (hfire : x.firePosition = some (s.generator g).tick.position) (hn : x.streams.getLsbD n.val = true) :
    (s.ticked g).Undecided x n := by
  refine ⟨ScheduleUnit.Moves.consistent (.fires g (s.generator g).tick.position) h, ?_⟩
  obtain ⟨behind, hmem⟩ := mem_fireEntries (g := g) (p := (s.generator g).tick.position) [] hx (by
    rw [hg, hwaits, hfire]
    simp)
  refine ⟨_, hmem, ⟨rfl, rfl, rfl, rfl, rfl, rfl⟩, rfl, hn, ?_⟩
  rw [show ({ x with state := .firing, behind := behind } : ScheduleEntry).answered = 0 from ((h.2 x hx).waiting hwaits).1]
  simp

/-- `t` is `s` after the ticks of other streams than `n`, as entry `x` and that stream meet it. -/
structure State.Tracks (x : ScheduleEntry) (n : StreamNo) (s t : State) : Prop where
  apart : State.Apart (· ≠ n) s t
  undecided : s.Undecided x n → t.Undecided x n
  answered : s.Answered x n → t.Answered x n

theorem State.Tracks.refl (x : ScheduleEntry) (n : StreamNo) (s : State) : State.Tracks x n s s := ⟨.refl _ s, id, id⟩

theorem State.Tracks.trans {u : State} (h : State.Tracks x n s t) (k : State.Tracks x n t u) : State.Tracks x n s u :=
  ⟨h.apart.trans k.apart, k.undecided ∘ h.undecided, k.answered ∘ h.answered⟩

theorem State.tickStream_tracks {m : StreamNo} (hne : m ≠ n) (bits : List Bool) (p : Position) (s : State) :
    State.Tracks x n s (s.tickStream bits p m) where
  apart := State.tickStream_apart (on := (· ≠ n)) hne bits p s
  undecided := State.KeptByAnswers.tickStream (P := State.Undecided x n)
    ⟨fun _ _ h k => h.undecided k, fun _ id k => k.answerEntry hne id⟩ bits p
  answered := State.KeptByAnswers.tickStream (P := State.Answered x n)
    ⟨fun _ _ h k => h.answered k, fun _ id k => k.answerEntry id m⟩ bits p

theorem State.takeLosses_none (hstreams : s.streamLosses = []) (hschedule : s.schedule.losses = []) : s.takeLosses g = s := by
  unfold State.takeLosses
  rw [hstreams]
  dsimp only [List.filter_nil, List.foldl_nil]
  rw [hschedule]
  rfl

/-- The tick at which an entry fires, as a stream of it meets it and the rest of the row leaves it. -/
theorem exec_firing_visit {kind : EntryKind} (h : s.firesNext g n x kind) (hconsistent : entriesConsistent s.schedule.entries)
    (lanes : List (List Bool)) : ∃ v t, exec (.tick g lanes) s = .next t.finish ∧ s.MeetsTick g n v ∧ v.Undecided x n
      ∧ State.Tracks x n (v.tickStream (lanes.getD n.val []) ((s.generator g).position + 1) n) t := by
  obtain ⟨hticks, hbound, hnoStream, hnoSchedule, hx, -, -, hg, hwaits, hfire, hnamed⟩ := h
  have hlosses := State.takeLosses_none (g := g) hnoStream hnoSchedule
  have hposition : (s.generator g).tick.position = (s.generator g).position + 1 := by
    have hposition := State.ticksNext_position hticks (by rw [hlosses])
    rwa [hlosses] at hposition
  have hexec := exec_tick hticks lanes
  rw [hlosses, State.tickGenerator_eq] at hexec
  have hmem : n ∈ (s.ticked g).takeOrder.1.filter fun m => ((s.ticked g).takeOrder.2.stream m).generator == g := by
    refine List.mem_filter.2 ⟨State.mem_takeOrder _ n, ?_⟩
    rw [State.takeOrder_snd]
    exact beq_iff_eq.2 hbound
  obtain ⟨v, hv, hfinal⟩ := State.foldl_visit
    (fun u m => u.tickStream (lanes.getD m.val []) (s.generator g).tick.position m) (R := State.Tracks x n)
    (.refl x n) .trans _ (State.takeOrder_nodup (s.ticked g) |>.filter _) hmem
    (fun u m _ hne => State.tickStream_tracks hne _ _ u) (s.ticked g).takeOrder.2
  have hbegins := (State.takeOrder_apart (· ≠ n) (s.ticked g)).trans hv.apart
  have hundecided : (s.ticked g).takeOrder.2.Undecided x n := by
    rw [State.takeOrder_snd]
    have hticked := State.ticked_undecided (n := n) hconsistent hx hg hwaits (hfire.trans (congrArg some hposition.symm)) hnamed
    exact ⟨hticked.consistent, hticked.fires⟩
  rw [hposition] at hfinal
  refine ⟨v, _, hexec, ⟨?_, ?_, hbegins.timebase, ?_, ?_, ?_⟩, hv.undecided hundecided, ?_⟩
  · exact hbegins.beyond.stream n (not_not_intro rfl)
  · exact hbegins.beyond.port n (not_not_intro rfl)
  · exact (fireEntries_from g _ [] _).trans hbegins.entries
  · exact hbegins.beyond.transfers
  · exact hbegins.beyond.events
  · rw [hposition]
    exact hfinal

/-- The entry that takes the stream's tick is the one that fires. -/
theorem State.Undecided.firingEntry {p : Position} (h : v.Undecided x n) (hentry : (v.stream n).scheduleEntry = some x.id)
    (hfire : x.firePosition = some p) : ∃ e, v.firingEntry n p = some e ∧ x.SameCall e := by
  obtain ⟨hconsistent, y, hy, hcall, -⟩ := h
  refine ⟨y, ?_, hcall⟩
  have hfind := State.entry?_of_mem hconsistent hy
  obtain ⟨hid, -, -, -, hsame, -⟩ := hcall
  rw [hid] at hfind
  unfold State.firingEntry
  rw [hentry]
  dsimp only
  rw [hfind, Option.filter_eq_some_iff]
  exact ⟨rfl, beq_iff_eq.2 (hsame.trans hfire)⟩

/-- What a stream's answer has become at the end of the step. -/
theorem State.Answered.finish (h : t.Answered x n) :
    (∀ y ∈ t.finish.schedule.entries, y.id = x.id → y.answered.getLsbD n.val = true)
      ∧ ((∀ y ∈ t.finish.schedule.entries, y.id ≠ x.id) →
        ∃ set : StreamSet, x.doneEvent set ∈ t.finish.heldEvents ∧ set.getLsbD n.val = true) := by
  obtain ⟨hconsistent, hanswered⟩ := h
  rw [State.finish_schedule, State.finish_heldEvents]
  rcases hanswered with ⟨y, hy, hcall, hset, -⟩ | ⟨hgone, set, hset, hheld⟩
  · refine ⟨fun z hz hid => ?_, fun hgone => absurd hcall.1 (hgone y hy)⟩
    obtain rfl : z = y := List.inj_on_of_nodup_map hconsistent.1 hz hy (hid.trans hcall.1.symm)
    exact hset
  · exact ⟨fun z hz hid => absurd hid (hgone z hz), fun _ => ⟨set, hheld, hset⟩⟩

/-! ### The run that a START entry begins -/

/-- A run that has begun at this tick: no entry names its stream, and it runs, has faulted or has ended (R10). -/
def Stream.Begun (c : Stream) : Prop :=
  c.scheduleEntry = none ∧ (c.state = .running ∨ c.state = .starved ∨ c.state = .faulted ∨ c.state = .idle)

theorem Stream.Settles.begun {c d : Stream} (h : c.Settles d) (hc : c.Begun) : d.Begun := by
  obtain ⟨hentry, hstate⟩ := hc
  refine ⟨h.entry.elim (fun k => k.trans hentry) And.right, ?_⟩
  rcases h.links with ⟨hsame, -⟩ | ⟨hidle, -⟩
  · rw [hsame]
    exact hstate
  · exact .inr (.inr (.inr hidle))

theorem State.FrameMoves.begun {p : Position} {marks : Option (BitVec 32)} {d : Stream} {lane : Port} {u : State}
    (h : s.FrameMoves n p marks d lane u) (hd : d.Begun) : (u.stream n).Begun := by
  obtain ⟨w, -, -, -, ⟨mark, starve, hbody⟩, -⟩ := h
  obtain ⟨hentry, hstate⟩ := hd
  rw [hbody]
  refine ⟨hentry, ?_⟩
  unfold Stream.recovered
  dsimp only
  split
  · exact .inl rfl
  · exact hstate

theorem State.starvedTick_begun (p : Position) (h : (s.stream n).Begun) : ((s.starvedTick n p).stream n).Begun := by
  by_cases hpolicy : (s.stream n).policy = .halt
  · rw [State.starvedTick_halts p hpolicy]
    refine ((s.modifyStream n Stream.countStarved).fault_settles n .underrun p).1.begun ?_
    rw [Stream.faultedWith_body]
    exact ⟨rfl, .inr (.inr (.inl rfl))⟩
  · obtain ⟨⟨begun, hstream⟩, -⟩ := State.starvedTick_leaves p hpolicy
    obtain ⟨hentry, hstate⟩ := h
    rw [hstream]
    refine ⟨hentry, ?_⟩
    unfold Stream.starving
    dsimp only
    split
    · exact .inr (.inl rfl)
    · exact hstate

theorem State.runTick_begun (p : Position) (bits : List Bool) (h : (s.stream n).Begun) : ((s.runTick n p bits).stream n).Begun := by
  rcases s.runTick_cases n p bits with ⟨place, rest, hrun⟩ | ⟨r, frame, hrun⟩ | ⟨frame, hrun⟩ <;> rw [hrun]
  · exact (s.passFrame_leaves n p place rest).begun h
  · exact ((s.openPeriod n []).assignFrame_leaves n p r frame).begun h
  · exact State.starvedTick_begun (s := s.openPeriod n frame) p h

theorem Stream.beginRun_belowTop (c : Stream) (p : Position) : (c.beginRun p).BelowTop := by
  have hzero : (0 : BitVec 64) ≠ BitVec.allOnes 64 := by decide
  exact ⟨hzero, hzero, hzero⟩

/-- The first tick of a run leaves one frame counted. -/
theorem Stream.CountsOne.of_beginRun {c d : Stream} {p : Position} (h : (c.beginRun p).CountsOne d) :
    d.dataFrames + d.gapFrames + d.starvedFrames = 1 := by
  obtain ⟨-, ⟨hdata, hgap, hstarved⟩ | ⟨hdata, hgap, hstarved⟩ | ⟨hdata, hgap, hstarved⟩⟩ := h <;>
    rw [hdata, hgap, hstarved] <;> rfl

/-- The stream as its START entry begins its run: one frame of the run is counted, and the stream has answered (R10, R100). -/
theorem State.tickStream_begins {p : Position} {bits : List Bool} {e : ScheduleEntry} (harmed : (v.stream n).state = .armed)
    (hfires : (v.firingEntry n p).filter (fun e => e.kind == .start) = some e) (hcall : x.SameCall e) (h : v.Undecided x n) :
    let c := (v.tickStream bits p n).stream n
    (v.tickStream bits p n).Answered x n ∧ c.Begun ∧ ((v.stream n).beginRun p).CountsOne c := by
  intro c
  have hbegun : (v.modifyStream n (fun c => c.beginRun p)).stream n = (v.stream n).beginRun p := State.stream_modifyStream _ _ _
  obtain ⟨hcounts, hopen⟩ := State.runTick_counts (s := v.modifyStream n (fun c => c.beginRun p)) (n := n) p bits
    (by rw [hbegun]; exact Stream.beginRun_belowTop _ _) (by rw [hbegun]; exact ⟨nofun, nofun⟩)
  have hruns := State.runTick_begun (s := v.modifyStream n (fun c => c.beginRun p)) (n := n) p bits
    (by rw [hbegun]; exact ⟨rfl, .inl rfl⟩)
  rw [hbegun] at hcounts
  have hsame : State.SameEntries v (((v.modifyStream n (fun c => c.beginRun p)).runTick n p bits).settle n) := by
    have hput : State.SameEntries v (v.modifyStream n (fun c => c.beginRun p)) := ⟨rfl, List.prefix_rfl⟩
    exact (hput.trans (.runTick ..)).trans (.settle hopen)
  obtain ⟨hsettles, -⟩ := State.settle_open hopen.1 hopen.2
  have htick := State.tickStream_starts (bits := bits) harmed hfires
  rw [hcall.1] at htick
  have hstream : c = (((v.modifyStream n (fun c => c.beginRun p)).runTick n p bits).settle n).stream n := by
    have htouches := ((((v.modifyStream n (fun c => c.beginRun p)).runTick n p bits).settle n).answerEntry_touches x.id n).trans
      (State.examineCommand_touches _)
    rw [show c = _ from congrArg (fun u : State => u.stream n) htick]
    exact htouches.stream n id
  refine ⟨?_, ?_, ?_⟩
  · rw [htick]
    exact (State.SameEntries.examineCommand _).answered (hsame.undecided h).answered
  · rw [hstream]
    exact hsettles.begun hruns
  · rw [hstream]
    exact hcounts.settles hsettles

end Sys2Proof.Machine

open Sys2Proof Sys2Proof.Machine

/-- Settles O43: the entry fires as the tick begins, and its stream begins the run and answers in its turn. -/
theorem startFires : Obligations.StartFires := by
  intro s g n x lanes h hconsistent harmed position
  obtain ⟨-, -, -, -, hx, hentry, hkind, hg, -, hfire, -⟩ := id h
  obtain ⟨v, t, hexec, hmeets, hundecided, hafter⟩ := exec_firing_visit h ((State.scheduleConsistent_iff s).1 hconsistent) lanes
  obtain ⟨e, he, hcall⟩ := hundecided.firingEntry (p := position) (by rw [hmeets.stream]; exact hentry) hfire
  obtain ⟨hanswered, ⟨hnoEntry, hstate⟩, hstart, hcounts⟩ := State.tickStream_begins (bits := lanes.getD n.val []) (p := position)
    (by rw [hmeets.stream]; exact harmed)
    (by rw [he, Option.filter_eq_some_iff]; exact ⟨rfl, by rw [hcall.2.1, hkind]; rfl⟩) hcall hundecided
  have hstream := hafter.apart.beyond.stream n (not_not_intro rfl)
  rw [← hstream] at hnoEntry hstate hstart hcounts
  obtain ⟨hstands, hplaced⟩ := (hafter.answered hanswered).finish
  refine ⟨_, hexec, ?_, ?_, ?_, ?_, hstands, fun hgone => ?_⟩
  · rw [State.finish_body]
    exact hstart
  · rw [State.finish_body]
    exact hnoEntry
  · rw [State.finish_body]
    exact hstate
  · rw [State.finish_body]
    exact Stream.CountsOne.of_beginRun ⟨hstart, hcounts⟩
  · obtain ⟨set, hheld, hset⟩ := hplaced hgone
    refine ⟨set, ?_, hset⟩
    have hdone : x.doneEvent set = .startDone x.id g set position x.late := by
      rw [ScheduleEntry.doneEvent, hkind, hfire, hg]
      rfl
    rw [← hdone]
    exact hheld

end

section
/-! A STOP entry that fires at a tick (R16, R66, R99, R101, R103). -/

namespace Sys2Proof.Machine

variable {s v m : State} {n : StreamNo} {g : GenNo} {x : ScheduleEntry}

/-- A stream that an entry stops is examined: it is in STOPPING, or IDLE and has answered (R18, R101). -/
theorem State.settle_answers (hstate : (m.stream n).state = .stopping) (hd : (m.stream n).destination = some .idle)
    (ho : (m.stream n).stopOrigin = some .entry) (ha : (m.stream n).answerTo = some x.id)
    (hreports : (m.stream n).reportConsistent = true) (h : m.Undecided x n) :
    m.StillStopping n (m.settle n) ∨ m.Stopped n (m.settle n) ∧ (m.settle n).Answered x n := by
  refine State.settle_stopping (Q := fun t => m.Stopped n t ∧ t.Answered x n) hstate hreports
    (fun v hstill hsilent hends => .inr ?_) fun t u hstopped hu => ?_
  · obtain ⟨-, -, hdestination, horigin, hanswer, -⟩ := hstill.settles.of_stopping hstate hstill.state
    have hend : v.endStopping n = (v.enterIdle n).answerEntry x.id n := by
      rw [State.endStopping_entry (by rw [hdestination, hd]; nofun) (horigin.trans ho), hanswer, ha]
    have hundecided : (v.enterIdle n).Undecided x n := by
      obtain ⟨hconsistent, hfires⟩ := h
      rw [← hstill.schedule] at hconsistent hfires
      exact ⟨hconsistent, hfires⟩
    have htouches := (v.enterIdle n).answerEntry_touches x.id n
    rw [hend]
    refine ⟨hstill.stopped hstate hsilent hends ((htouches.stream n id).trans (State.stream_modifyStream _ _ _)) ?_,
      hundecided.answered⟩
    exact State.ports_ext fun k => htouches.port k id
  · have hsettled := hstopped.1.settled
    rw [State.isSettled, hu] at hsettled
    cases hsettled

/-- The stream as its STOP entry enters it into STOPPING, its lane at the idle content (R16, R101). -/
def State.stopFiring (s : State) (n : StreamNo) (id : EntryId) : State :=
  (s.idlePeriod n).enterStopping n .idle (some .entry) (some id)

theorem State.stopFiring_stream (s : State) (n : StreamNo) (id : EntryId) :
    (s.stopFiring n id).stream n = (s.stream n).stoppingWith .idle (some .entry) (some id) :=
  State.enterStopping_stream _ _ _ _ _

theorem State.stopFiring_frame (s : State) (n : StreamNo) (id : EntryId) :
    (s.stopFiring n id).ports = (s.idlePeriod n).ports ∧ (s.stopFiring n id).schedule = s.schedule := by
  rw [State.stopFiring, State.enterStopping_frame]
  exact ⟨rfl, rfl⟩

/-- What a STOP entry leaves of its stream: in STOPPING, or IDLE with its answer given (R18, R101). -/
theorem State.stopFiring_ends (hreports : (s.stream n).reportConsistent = true) (h : s.Undecided x n) :
    (s.stopFiring n x.id).StillStopping n ((s.stopFiring n x.id).settle n)
      ∨ (s.stopFiring n x.id).Stopped n ((s.stopFiring n x.id).settle n) ∧ ((s.stopFiring n x.id).settle n).Answered x n := by
  refine State.settle_answers ?_ ?_ ?_ ?_ ?_ ?_
  · rw [State.stopFiring_stream, Stream.stoppingWith_body]
  · rw [State.stopFiring_stream, Stream.stoppingWith_body]
  · rw [State.stopFiring_stream, Stream.stoppingWith_body]
  · rw [State.stopFiring_stream, Stream.stoppingWith_body]
  · rw [State.stopFiring_stream]
    exact (Stream.stoppingWith_carries _ _ _ _).reports hreports
  · obtain ⟨hconsistent, hfires⟩ := h
    rw [← (s.stopFiring_frame n x.id).2] at hconsistent hfires
    exact ⟨hconsistent, hfires⟩

end Sys2Proof.Machine

open Sys2Proof Sys2Proof.Machine

/-- Settles O44: the entry fires as the tick begins, and its stream enters STOPPING in its turn. -/
theorem stopFires : Obligations.StopFires := by
  intro s g n x lanes h hconsistent hstate hreports c reason
  obtain ⟨-, hbound, -, -, hx, hentry, hkind, hg, -, hfire, -⟩ := id h
  obtain ⟨v, t, hexec, hmeets, hundecided, hafter⟩ := exec_firing_visit h ((State.scheduleConsistent_iff s).1 hconsistent) lanes
  have hv : v.stream n = c := hmeets.stream
  obtain ⟨e, he, hcall⟩ := hundecided.firingEntry (p := (s.generator g).position + 1) (by rw [hv]; exact hentry) hfire
  have htick : v.tickStream (lanes.getD n.val []) ((s.generator g).position + 1) n = (v.stopFiring n x.id).settleStream n := by
    have hrunning : (v.stream n).isRunning = true := by
      rw [hv]
      rcases hstate with h | h <;> simp [c, Stream.isRunning, h]
    have hfires : (v.firingEntry n ((s.generator g).position + 1)).filter
        (fun e => e.kind == .stop && (v.stream n).state != .draining) = some e := by
      rw [he, Option.filter_eq_some_iff, hv, hcall.2.1, hkind]
      refine ⟨rfl, ?_⟩
      rcases hstate with h | h <;> simp [c, h]
    rw [State.tickStream_stops hrunning hfires, hcall.1]
    rfl
  rw [htick] at hafter
  have hends := State.stopFiring_ends (s := v) (n := n) (x := x) (by rw [hv]; exact hreports) hundecided
  have hexamined := ((v.stopFiring n x.id).settle n).examineCommand_apart (· ≠ n)
  have hrest := hexamined.trans hafter.apart
  have hstream : t.stream n = ((v.stopFiring n x.id).settle n).stream n := hrest.beyond.stream n (not_not_intro rfl)
  have hbegun := v.stopFiring_stream n x.id
  rw [hv] at hbegun
  have hrun : c.sameRun (t.stream n) := by
    rw [hstream]
    refine (c.stoppingWith_sameRun .idle (some .entry) (some x.id)).trans ?_
    rw [← hbegun]
    exact hends.elim (fun hstill => hstill.settles.sameRun) fun hstopped => hstopped.1.run
  have hnoEntry : (t.stream n).scheduleEntry = none := by
    have hnone : ((v.stopFiring n x.id).stream n).scheduleEntry = none := by rw [hbegun, Stream.stoppingWith_body]
    rw [hstream]
    refine Eq.trans ?_ hnone
    exact hends.elim (fun hstill => (hstill.settles.of_stopping (by rw [hbegun, Stream.stoppingWith_body]) hstill.state).1)
      fun hstopped => hstopped.1.entry
  refine ⟨_, hexec, ?_, ?_, ?_, ?_, ?_⟩
  · rw [State.finish_body]
    exact hrun
  · rw [State.finish_body]
    exact hnoEntry
  · rw [hrest.finish_port]
    have hports : ((v.stopFiring n x.id).settle n).ports = (v.idlePeriod n).ports := by
      rw [← (v.stopFiring_frame n x.id).1]
      exact hends.elim State.StillStopping.ports fun hstopped => hstopped.1.ports
    rw [State.port, hports]
    exact hmeets.idlePeriod_port hbound
  · have hstops : State.Beyond (· = n) (· = n) (v.idlePeriod n) (v.stopFiring n x.id) :=
      (beyond_kept (· = n) _).enterStopping rfl _ _ _ (.refl _ _ _)
    refine State.readsDiscarded_of (v := v.stopFiring n x.id) (halted := (· ≠ n)) (fun e r _ hr => ?_)
      (fun hd => State.enterStopping_allMarked _ _ _ (show (v.stream n).direction = .output by rw [hv]; exact hd)) ?_
    · rcases hmeets.transfers e r hr with hr | ⟨hr, -⟩
      · exact (hstops.transfers e r hr).imp_right And.left
      · rcases hstops.transfers e _ hr with hr | ⟨hr, -⟩ <;> exact .inr hr
    · refine State.MarksReads.trans (.of_eq (State.settle_transfers _ n)) hrest.beyond.transfers
  · rcases hends with hstill | ⟨hstopped, hanswered⟩
    · left
      have hsettles := hstill.settles
      rw [hbegun] at hsettles
      obtain ⟨-, -, hdestination, horigin, hanswer, -⟩ := hsettles.of_stopping (by rw [Stream.stoppingWith_body]) hstill.state
      obtain ⟨b, hb⟩ := State.finish_halted (s := t) (n := n) (by rw [hstream]; simp [Stream.isTaking, hstill.state])
      rw [hb, hstream]
      refine ⟨hstill.state, hdestination.trans ?_, horigin.trans ?_, hanswer.trans ?_, fun hd => ?_, fun hd => ?_⟩
      · rw [Stream.stoppingWith_body]
      · rw [Stream.stoppingWith_body]
      · rw [Stream.stoppingWith_body]
      · rw [hsettles.body, Stream.stoppingWith_body]
        exact Stream.emptied_output hd
      · rw [hsettles.body, Stream.stoppingWith_body]
        exact Stream.emptied_capture hd
    · right
      obtain ⟨hstands, hplaced⟩ := (hafter.answered ((State.SameEntries.examineCommand _).answered hanswered)).finish
      refine ⟨?_, hstands, fun hgone => ?_⟩
      · rw [State.finish_body, hstream]
        exact hstopped.state
      · obtain ⟨set, hheld, hset⟩ := hplaced hgone
        refine ⟨set, ?_, hset⟩
        have hdone : x.doneEvent set = .entryStopDone x.id g set reason (s.generator g).position x.late := by
          rw [ScheduleEntry.doneEvent, hkind, hfire, hg]
          show Event.entryStopDone x.id g set x.condition.stopReason ((s.generator g).position + 1 - 1) x.late = _
          rw [BitVec.add_sub_cancel]
          rfl
        rw [← hdone]
        exact hheld

end
